-- ==== Sys2Proof/Word.lean ====
section
/-! DEFINITION. The word types of the DPS310 calibration core: a byte, a command word, a response code and the
64-bit encoding of a binary64 value (spec 00_scope.md R7, R10; 30_encoding.md R71; 60_exceptions.md R201). -/

namespace Sys2Proof

/-- An unsigned byte `u8` (00_scope.md R7). -/
abbrev Byte := BitVec 8

/-- A 32-bit command word (30_encoding.md R70). -/
abbrev CmdWord := BitVec 32

/-- A 4-bit response code, as `resp`, `LAST_ERR` and `FIRST_ERR` hold it (60_exceptions.md R201). -/
abbrev RespCode := BitVec 4

/-- A binary64 value, held as its 64-bit IEEE 754 encoding `bits64` (00_scope.md R10; log entry 6). -/
abbrev F64 := BitVec 64

end Sys2Proof
end

