-- ==== Sys2Proof/Machine/State.lean ====
section
/-! DEFINITION. The state of the model: every register of the block (10_state.md R20 to R31), the output signals (R36)
and what the host still presents (R34, R36), as plain data, with the reset values of R33. -/

namespace Sys2Proof.Machine

/-- The nine coefficient registers, each signed and of its own width (10_state.md R23; log entry 10). -/
structure Coeffs where
  c0 : BitVec 12
  c1 : BitVec 12
  c00 : BitVec 20
  c10 : BitVec 20
  c01 : BitVec 16
  c11 : BitVec 16
  c20 : BitVec 16
  c21 : BitVec 16
  c30 : BitVec 16
deriving DecidableEq, Repr

/-- Nine zeros, the reset value of the coefficient registers (10_state.md R33). -/
def Coeffs.reset : Coeffs :=
  { c0 := 0, c1 := 0, c00 := 0, c10 := 0, c01 := 0, c11 := 0, c20 := 0, c21 := 0, c30 := 0 }

/-- The output signals of one answered command (10_state.md R36). -/
structure Response where
  /-- `resp`, the response code. -/
  resp : RespCode
  /-- `dout`, the data result. -/
  dout : BitVec 64
deriving DecidableEq, Repr

/-- What the host may present between two commands (10_state.md R36; 60_exceptions.md R215). -/
inductive HostEvent where
  /-- One word on `cmd`. -/
  | command (w : CmdWord)
  /-- The `rst` event. -/
  | rst
deriving DecidableEq, Repr

/-- Why the machine stops. No command stops the block: an error is its response code and a next state
(60_exceptions.md R200, R206). -/
inductive Fault where
  /-- The host presents nothing more, so there is no block step to take (60_exceptions.md R216; 93_implementation_defined.md
  U4, "stuck"). Raised by `step` alone, when `stream` is empty. Safe: nothing is claimed past that point (log entry 2). -/
  | hostStopped
deriving DecidableEq, Repr

/-- Why an instruction has no meaning. Every command of the opcode table has one, so nothing raises this. -/
inductive Refusal where
  /-- An instruction without a meaning, by its mnemonic. Raised by no arm of `exec`. Safe. -/
  | notModelled (mnemonic : String)
deriving DecidableEq, Repr

/-- The registers of the block under the names of 10_state.md, then the two fields of the model's own. -/
structure State where
  /-- `CB[0..17]` (R21). -/
  cb : Vector Byte 18
  /-- `CBV[0..17]` (R22). -/
  cbv : Vector Bool 18
  /-- `C.c0` to `C.c30` (R23). -/
  coef : Coeffs
  /-- `CAL_VALID` (R24). -/
  calValid : Bool
  /-- `RB[0..2]` (R25). -/
  rb : Vector Byte 3
  /-- `RBV[0..2]` (R26). -/
  rbv : Vector Bool 3
  /-- `TSC` (R27). -/
  tsc : F64
  /-- `TSC_VALID` (R28). -/
  tscValid : Bool
  /-- `PSC` (R27). -/
  psc : F64
  /-- `TEMP` (R29). -/
  temp : F64
  /-- `PRES` (R29). -/
  pres : F64
  /-- `PRS_VALID` (R30). -/
  prsValid : Bool
  /-- `LAST_ERR` (R31). -/
  lastErr : RespCode
  /-- `FIRST_ERR` (R31). -/
  firstErr : RespCode
  /-- The outputs `resp` and `dout` the last host event got; none when it got no answer (R36; log entry 3). -/
  answer : Option Response
  /-- What the host still presents, next first (R34, R36; log entry 1). -/
  stream : List HostEvent
deriving DecidableEq, Repr

/-- The state after reset and at power-on (10_state.md R33; 70_reset_and_hazards.md R231), with nothing answered yet and
nothing presented (log entries 1 and 3). -/
def State.reset : State :=
  { cb := Vector.replicate 18 0#8
    cbv := Vector.replicate 18 false
    coef := Coeffs.reset
    calValid := false
    rb := Vector.replicate 3 0#8
    rbv := Vector.replicate 3 false
    tsc := 0#64
    tscValid := false
    psc := 0#64
    temp := 0#64
    pres := 0#64
    prsValid := false
    lastErr := 0#4
    firstErr := 0#4
    answer := none
    stream := [] }

end Sys2Proof.Machine
end

