-- ==== Sys2Proof/Machine/Flags.lean ====
section
/-! DEFINITION. The valid bits and the status register. No arithmetic sets a flag (10_state.md R35); the only flags are
the bits of `STATUS` (R32). -/

namespace Sys2Proof.Machine

/-- Every one of the valid bits is 1. -/
def allSet (bits : List Bool) : Bool := bits.all (fun b => b)

/-- Every `CBV[k]` is 1 (40_decoder.md R103). -/
def coefComplete (s : State) : Bool := allSet s.cbv.toList

/-- Every `RBV[k]` is 1 (41_converter.md R140, R150). -/
def rawComplete (s : State) : Bool := allSet s.rbv.toList

/-- The three raw valid bits cleared (10_state.md R26). -/
def noRaw : Vector Bool 3 := Vector.replicate 3 false

/-- The eighteen coefficient valid bits cleared (10_state.md R22). -/
def noCoef : Vector Bool 18 := Vector.replicate 18 false

/-- One status bit at a position. -/
def bitAt (b : Bool) (pos : Nat) : BitVec 32 := if b then 1#32 <<< pos else 0#32

/-- A run of status bits from a position up. -/
def bitsFrom : List Bool → Nat → BitVec 32
  | [], _ => 0#32
  | b :: bs, pos => bitAt b pos ||| bitsFrom bs (pos + 1)

/-- `STATUS`, the 32-bit view of the valid bits and the error registers (10_state.md R32). -/
def status (s : State) : BitVec 32 :=
  (s.firstErr.setWidth 32 <<< 28) ||| (s.lastErr.setWidth 32 <<< 24)
    ||| bitsFrom s.cbv.toList 6
    ||| bitsFrom s.rbv.toList 3
    ||| bitAt s.prsValid 2 ||| bitAt s.tscValid 1 ||| bitAt s.calValid 0

end Sys2Proof.Machine
end

