-- ==== Sys2Proof/Machine/Operands.lean ====
section
/-! DEFINITION. How bytes become numbers and numbers become results: the sign correction at a field's own width
(00_scope.md R9), the 24-bit raw value (41_converter.md R132), the selected register of a read (42_control.md R170, R171)
and the 64-bit patterns of `dout` (00_scope.md R8). -/

namespace Sys2Proof.Machine

/-- `twos(u, w)`: the sign correction of the `w`-bit unsigned `u` (00_scope.md R9). -/
def twos (u w : Nat) : Int :=
  if u > 2 ^ (w - 1) - 1 then (u : Int) - 2 ^ w else (u : Int)

/-- `sext_64(v)` (00_scope.md R8). -/
def sext64 (v : Int) : BitVec 64 := BitVec.ofInt 64 v

/-- `zext_64(v)` of a 32-bit value (00_scope.md R8). -/
def zext64 (v : BitVec 32) : BitVec 64 := v.setWidth 64

/-- `raw24(RB)`: the three raw bytes, most significant first, sign-corrected at 24 bits (41_converter.md R132). -/
def raw24 (rb : Vector Byte 3) : Int :=
  twos (rb[0].toNat * 2 ^ 16 + rb[1].toNat * 2 ^ 8 + rb[2].toNat) 24

/-- The coefficient `RDC idx` selects, as a signed integer; none past the last (42_control.md R170; 10_state.md R23). -/
def coefAt (c : Coeffs) (idx : Nat) : Option Int :=
  match idx with
  | 0 => some c.c0.toInt
  | 1 => some c.c1.toInt
  | 2 => some c.c00.toInt
  | 3 => some c.c10.toInt
  | 4 => some c.c01.toInt
  | 5 => some c.c11.toInt
  | 6 => some c.c20.toInt
  | 7 => some c.c21.toInt
  | 8 => some c.c30.toInt
  | _ => none

/-- The register `RDR idx` selects; none past the last (42_control.md R171). -/
def resultAt (s : State) (idx : Nat) : Option F64 :=
  match idx with
  | 0 => some s.temp
  | 1 => some s.pres
  | 2 => some s.tsc
  | 3 => some s.psc
  | _ => none

end Sys2Proof.Machine
end

