-- ==== Sys2Proof/Config.lean ====
section
/-! DEFINITION. What is fixed for this hardware (spec 00_scope.md R5), what the spec leaves to the environment (R6:
constants without a value), and the one free value of the arithmetic. -/

namespace Sys2Proof

/-- `NCB`: the number of coefficient bytes (00_scope.md R5). -/
abbrev Config.ncb : Nat := 18

/-- The number of raw measurement bytes (00_scope.md R5: 24 bits, 3 bytes). -/
abbrev Config.nrb : Nat := 3

/-- The number of coefficients (00_scope.md R5). -/
abbrev Config.nCoef : Nat := 9

/-- The number of registers `RDR` reads (42_control.md R171). -/
abbrev Config.nResult : Nat := 4

/-- `KT`, the temperature divisor, 2^19 (00_scope.md R5). -/
def Config.kT : Int := 524288

/-- `KP`, the pressure divisor, 3 * 2^19 (00_scope.md R5). -/
def Config.kP : Int := 1572864

/-- The temperature constant 0.5, as a binary64 encoding (00_scope.md R5). -/
def Config.half : F64 := 0x3FE0000000000000#64

/-- The sensor's 7-bit device address (00_scope.md R5; host side). -/
def Config.deviceAddress : BitVec 7 := 0x77#7

/-- The sensor offset of coefficient byte 0; byte `k` is at this plus `k` (00_scope.md R5; host side). -/
def Config.coefOffset : Byte := 0x10#8

/-- `TMP_ADDR[0..2]`: the sensor offsets of the temperature bytes, most significant first. OPEN in the spec
(00_scope.md R6): no value is known. Log entry 8. -/
opaque Config.tmpAddr : Fin 3 → Byte

/-- `PSR_ADDR[0..2]`: the sensor offsets of the pressure bytes, most significant first. OPEN in the spec
(00_scope.md R6): no value is known. Log entry 8. -/
opaque Config.psrAddr : Fin 3 → Byte

/-- `T_SETTLE_T`: the host's wait after a temperature trigger. OPEN (00_scope.md R6). Log entry 8. -/
opaque Config.tSettleT : Nat

/-- `T_SETTLE_P`: the host's wait after a pressure trigger. OPEN (00_scope.md R6). Log entry 8. -/
opaque Config.tSettleP : Nat

/-- The host's pause between two cycles of the driving loop (70_reset_and_hazards.md R243 gives only an example).
OPEN. Log entry 8. -/
opaque Config.loopPause : Nat

/-- The binary64 operations of 00_scope.md R10, named so that a free NaN may depend on the operation. -/
inductive Config.F64Op where
  /-- `fadd` -/
  | add
  /-- `fmul` -/
  | mul
  /-- `fdiv` -/
  | div
deriving DecidableEq, Repr

/-- FREE VALUE. The sign (bit 51) and the 51 payload bits (bits 50 to 0) of the quiet NaN an operation gives: IEEE 754
fixes neither and the spec names no rule. A function of the operation and its operands, without a body. No reachable
state produces a NaN (41_converter.md R160). Log entry 4. -/
opaque Config.nanBits : Config.F64Op → F64 → F64 → BitVec 52

end Sys2Proof
end

