-- ==== Sys2Proof/Syntax.lean ====
section
/-! DEFINITION. The commands of the block: one constructor per row of spec/opcode_table.json (30_encoding.md R74),
with the operands its form has (R72, R73). -/

namespace Sys2Proof

/-- A command. `idx` is `cmd.IDX` and `data` is `cmd.DATA` (30_encoding.md R71, R73). -/
inductive Instr where
  /-- No operation (42_control.md R174). -/
  | nop
  /-- Load one coefficient byte (40_decoder.md R102). -/
  | cld (idx data : Byte)
  /-- Decode the nine coefficients (40_decoder.md R103). -/
  | cdec
  /-- Load one raw measurement byte (41_converter.md R131). -/
  | mld (idx data : Byte)
  /-- Convert a temperature measurement (41_converter.md R140). -/
  | cvt
  /-- Convert a pressure measurement (41_converter.md R150). -/
  | cvp
  /-- Read one decoded coefficient (42_control.md R170). -/
  | rdc (idx : Byte)
  /-- Read one result or scaled value (42_control.md R171). -/
  | rdr (idx : Byte)
  /-- Read the status register (42_control.md R172). -/
  | rds
  /-- The host reports a bus failure (42_control.md R176). -/
  | berr
  /-- Reset the block (42_control.md R177). -/
  | rst
deriving DecidableEq, Repr

end Sys2Proof
end

