-- ==== Sys2Proof/WellFormed.lean ====
section
/-! DEFINITION. Which commands have legal operands: the index is below the row's `LIMIT` (30_encoding.md R74, R76). -/

namespace Sys2Proof

/-- The operands of the command are legal: column "legal IDX" of 30_encoding.md R74. -/
def Instr.wellFormed : Instr → Bool
  | .nop => true
  | .cld idx _ => decide (idx.toNat < 18)
  | .cdec => true
  | .mld idx _ => decide (idx.toNat < 3)
  | .cvt => true
  | .cvp => true
  | .rdc idx => decide (idx.toNat < 9)
  | .rdr idx => decide (idx.toNat < 4)
  | .rds => true
  | .berr => true
  | .rst => true

end Sys2Proof
end

