-- ==== Sys2Proof/Decode.lean ====
section
/-! DEFINITION. The command decoder and encoder (30_encoding.md R70 to R76). `decode` is total on 32-bit words: a
command with legal operands, or one of two rejections, each by name. -/

namespace Sys2Proof

/-- Why a word is no command. Both become response codes (60_exceptions.md R201), never a stop of the machine. -/
inductive Reject where
  /-- The word matches no row of the opcode map (30_encoding.md R75): `ILLEGAL_CMD`. Safe: as the spec says. -/
  | illegalCmd
  /-- The row is found and its index is at or above `LIMIT` (30_encoding.md R76): `BAD_INDEX`. Safe: as the spec says. -/
  | badIndex
deriving DecidableEq, Repr

/-- The operand forms (30_encoding.md R72). -/
inductive Form where
  /-- No operand. -/
  | z
  /-- Index only. -/
  | i
  /-- Index and data byte. -/
  | id
deriving DecidableEq, Repr

/-- The opcodes, one per row of 30_encoding.md R74, in its order. -/
inductive Opcode where
  | nop | cld | cdec | mld | cvt | cvp | rdc | rdr | rds | berr | rst
deriving DecidableEq, Repr

/-- `cmd.OP = cmd[31:24]` (30_encoding.md R71). -/
def opField (w : CmdWord) : Byte := w.extractLsb' 24 8

/-- `cmd.IDX = cmd[23:16]` (30_encoding.md R71). -/
def idxField (w : CmdWord) : Byte := w.extractLsb' 16 8

/-- `cmd.RSV = cmd[15:8]` (30_encoding.md R71). -/
def rsvField (w : CmdWord) : Byte := w.extractLsb' 8 8

/-- `cmd.DATA = cmd[7:0]` (30_encoding.md R71). -/
def dataField (w : CmdWord) : Byte := w.extractLsb' 0 8

/-- `cmd = OP ++ IDX ++ RSV ++ DATA` (30_encoding.md R71). -/
def commandWord (op idx rsv data : Byte) : CmdWord := op ++ idx ++ rsv ++ data

/-- Column `OP` of 30_encoding.md R74. -/
def Opcode.byte : Opcode → Byte
  | .nop => 0x00#8
  | .cld => 0x01#8
  | .cdec => 0x02#8
  | .mld => 0x03#8
  | .cvt => 0x04#8
  | .cvp => 0x05#8
  | .rdc => 0x06#8
  | .rdr => 0x07#8
  | .rds => 0x08#8
  | .berr => 0x09#8
  | .rst => 0x0A#8

/-- The opcode a byte selects: none when `op > 0x0A` (30_encoding.md R76, first check). -/
def Opcode.ofByte (op : Byte) : Option Opcode :=
  match op.toNat with
  | 0 => some .nop
  | 1 => some .cld
  | 2 => some .cdec
  | 3 => some .mld
  | 4 => some .cvt
  | 5 => some .cvp
  | 6 => some .rdc
  | 7 => some .rdr
  | 8 => some .rds
  | 9 => some .berr
  | 10 => some .rst
  | _ => none

/-- Column `form` of 30_encoding.md R74. -/
def Opcode.form : Opcode → Form
  | .nop => .z
  | .cld => .id
  | .cdec => .z
  | .mld => .id
  | .cvt => .z
  | .cvp => .z
  | .rdc => .i
  | .rdr => .i
  | .rds => .z
  | .berr => .z
  | .rst => .z

/-- Column `LIMIT` of 30_encoding.md R74: how many index values are legal (form Z: the one value 0). -/
def Opcode.limit : Opcode → Nat
  | .nop => 1
  | .cld => Config.ncb
  | .cdec => 1
  | .mld => Config.nrb
  | .cvt => 1
  | .cvp => 1
  | .rdc => Config.nCoef
  | .rdr => Config.nResult
  | .rds => 1
  | .berr => 1
  | .rst => 1

/-- The command of an opcode with operands `idx` and `data`; a form that has no such operand drops it. -/
def Opcode.select (op : Opcode) (idx data : Byte) : Instr :=
  match op with
  | .nop => .nop
  | .cld => .cld idx data
  | .cdec => .cdec
  | .mld => .mld idx data
  | .cvt => .cvt
  | .cvp => .cvp
  | .rdc => .rdc idx
  | .rdr => .rdr idx
  | .rds => .rds
  | .berr => .berr
  | .rst => .rst

/-- A byte the form has no operand for and that must be zero is nonzero (30_encoding.md R72, R75). -/
def Form.violated (f : Form) (idx data : Byte) : Bool :=
  match f with
  | .z => idx != 0#8 || data != 0#8
  | .i => data != 0#8
  | .id => false

/-- `decode(cmd)` of 30_encoding.md R76, its checks in its order: the first that fails decides. -/
def decode (w : CmdWord) : Except Reject Instr :=
  match Opcode.ofByte (opField w) with
  | none => .error .illegalCmd
  | some op =>
    if rsvField w != 0#8 then .error .illegalCmd
    else if op.form.violated (idxField w) (dataField w) then .error .illegalCmd
    else if op.form != .z && decide (op.limit ≤ (idxField w).toNat) then .error .badIndex
    else .ok (op.select (idxField w) (dataField w))

/-- The word of a command (30_encoding.md R71, R72, R74): fields a form does not use are 0. -/
def encode : Instr → CmdWord
  | .nop => commandWord 0x00#8 0#8 0#8 0#8
  | .cld idx data => commandWord 0x01#8 idx 0#8 data
  | .cdec => commandWord 0x02#8 0#8 0#8 0#8
  | .mld idx data => commandWord 0x03#8 idx 0#8 data
  | .cvt => commandWord 0x04#8 0#8 0#8 0#8
  | .cvp => commandWord 0x05#8 0#8 0#8 0#8
  | .rdc idx => commandWord 0x06#8 idx 0#8 0#8
  | .rdr idx => commandWord 0x07#8 idx 0#8 0#8
  | .rds => commandWord 0x08#8 0#8 0#8 0#8
  | .berr => commandWord 0x09#8 0#8 0#8 0#8
  | .rst => commandWord 0x0A#8 0#8 0#8 0#8

/-- The opcode of a command. -/
def Instr.opcode : Instr → Opcode
  | .nop => .nop
  | .cld _ _ => .cld
  | .cdec => .cdec
  | .mld _ _ => .mld
  | .cvt => .cvt
  | .cvp => .cvp
  | .rdc _ => .rdc
  | .rdr _ => .rdr
  | .rds => .rds
  | .berr => .berr
  | .rst => .rst

/-- Column `match` of 30_encoding.md R74. -/
def Opcode.rowMatch : Opcode → CmdWord
  | .nop => 0x00000000#32
  | .cld => 0x01000000#32
  | .cdec => 0x02000000#32
  | .mld => 0x03000000#32
  | .cvt => 0x04000000#32
  | .cvp => 0x05000000#32
  | .rdc => 0x06000000#32
  | .rdr => 0x07000000#32
  | .rds => 0x08000000#32
  | .berr => 0x09000000#32
  | .rst => 0x0A000000#32

/-- Column `mask` of 30_encoding.md R74. -/
def Opcode.rowMask : Opcode → CmdWord
  | .nop => 0xFFFFFFFF#32
  | .cld => 0xFF00FF00#32
  | .cdec => 0xFFFFFFFF#32
  | .mld => 0xFF00FF00#32
  | .cvt => 0xFFFFFFFF#32
  | .cvp => 0xFFFFFFFF#32
  | .rdc => 0xFF00FFFF#32
  | .rdr => 0xFF00FFFF#32
  | .rds => 0xFFFFFFFF#32
  | .berr => 0xFFFFFFFF#32
  | .rst => 0xFFFFFFFF#32

/-- "A word `w` matches a row when `(w & mask) = match`" (30_encoding.md R74). -/
def Opcode.matchesWord (op : Opcode) (w : CmdWord) : Bool := (w &&& op.rowMask) == op.rowMatch

/-- The command word a table row's bits give: bit 0 is bit 0 of the word, bits from `nbits` up are 0 (log entry 14). -/
def tableWord (nbits w : Nat) : CmdWord := BitVec.ofNat 32 (w % 2 ^ nbits)

/-- What the decoder reads from a command whose bits are `w` (spec/opcode_table.json's numbering is 30_encoding.md R71's). -/
def decodeTableWord (nbits w : Nat) : Option Instr :=
  match decode (tableWord nbits w) with
  | .ok i => some i
  | .error _ => none

end Sys2Proof
end

