-- ==== Sys2Proof/Machine/Ops.lean ====
section
/-! DEFINITION. The operations every command shares: how a command ends (answer and error recording, 60_exceptions.md
R200 to R203), how it raises an error (00_scope.md R12: the block's one form of exception; nothing is saved and nothing
is returned from, R206, R207), reset (10_state.md R33), and taking the host's next event (R36). -/

namespace Sys2Proof.Machine

/-- The error codes of 60_exceptions.md R201. -/
inductive ErrorCode where
  /-- The word matches no row of the opcode map. -/
  | illegalCmd
  /-- The index is at or above `LIMIT`. -/
  | badIndex
  /-- `CDEC` while some `CBV[k] = 0`. -/
  | coefIncomplete
  /-- `CDEC` while `CAL_VALID = 1`. -/
  | calLocked
  /-- `CVT`, `CVP` or `RDC` while `CAL_VALID = 0`. -/
  | notCalibrated
  /-- `CVT` or `CVP` while some `RBV[k] = 0`. -/
  | rawIncomplete
  /-- `CVP` while `TSC_VALID = 0`. -/
  | noTsc
  /-- The host reports a failed bus transaction. -/
  | busError
deriving DecidableEq, Repr

/-- `OK` (60_exceptions.md R201). -/
def okCode : RespCode := 0#4

/-- The 4-bit code of an error (60_exceptions.md R201). -/
def ErrorCode.code : ErrorCode → RespCode
  | .illegalCmd => 1#4
  | .badIndex => 2#4
  | .coefIncomplete => 3#4
  | .calLocked => 4#4
  | .notCalibrated => 5#4
  | .rawIncomplete => 6#4
  | .noTsc => 7#4
  | .busError => 8#4

/-- The code a rejected word is answered with (30_encoding.md R76). -/
def rejectCode : Reject → ErrorCode
  | .illegalCmd => .illegalCmd
  | .badIndex => .badIndex

/-- Error recording, after the command's own effects (60_exceptions.md R203). -/
def record (resp : RespCode) (s : State) : State :=
  { s with
    lastErr := resp
    firstErr := if resp ≠ 0#4 ∧ s.firstErr = 0#4 then resp else s.firstErr }

/-- The block returns `resp` and `dout` together (10_state.md R36). -/
def reply (resp : RespCode) (dout : BitVec 64) (s : State) : State :=
  { s with answer := some { resp := resp, dout := dout } }

/-- A command that passes every check ends: `OK`, recorded, with its data result (60_exceptions.md R202, R203). -/
def succeed (dout : BitVec 64) (s : State) : Host.Outcome State Fault Refusal :=
  .next (reply okCode dout (record okCode s))

/-- The end of a legal `RDS`: `OK` and its data result, nothing recorded (60_exceptions.md R203). -/
def succeedUnrecorded (dout : BitVec 64) (s : State) : Host.Outcome State Fault Refusal :=
  .next (reply okCode dout s)

/-- `raise E(code)`: the command ends with the code, recorded, and `dout = 0` (00_scope.md R12; 42_control.md R175). The
state given is the one before the command, whose own writes are discarded (but for `BERR`, 60_exceptions.md R200). -/
def raise (e : ErrorCode) (s : State) : Host.Outcome State Fault Refusal :=
  .next (reply e.code 0#64 (record e.code s))

/-- Every register of the block at its reset value (10_state.md R33). What the host still presents and the outputs are no
registers: they stay (log entry 16). -/
def resetRegisters (s : State) : State :=
  { State.reset with answer := s.answer, stream := s.stream }

/-- The `rst` event: reset, "no response of its own" (70_reset_and_hazards.md R230). -/
def takeReset (s : State) : Host.Outcome State Fault Refusal :=
  .next { resetRegisters s with answer := none }

/-- The next event the host presents, and the state in which it is taken; none when the host has stopped. -/
def nextEvent (s : State) : Option (HostEvent × State) :=
  match s.stream with
  | [] => none
  | e :: rest => some (e, { s with stream := rest })

/-- The host presents a word next, before whatever else it still presents. -/
def State.present (w : CmdWord) (s : State) : State :=
  { s with stream := .command w :: s.stream }

end Sys2Proof.Machine
end

