-- ==== Sys2Proof/Machine/Calibration.lean ====
section
/-! DEFINITION. The calibration decoder (spec 40_decoder.md): the decode function of R104 and the commands `CLD` (R102)
and `CDEC` (R103). -/

namespace Sys2Proof.Machine

/-- A coefficient register of width `w` takes the signed integer `twos(u, w)` (00_scope.md R9; log entry 10). -/
def coefficient (w u : Nat) : BitVec w := BitVec.ofInt w (twos u w)

/-- `decode(B)`: the nine coefficients of 18 bytes, each field assembled by shifting and OR-ing and sign-corrected at its
own width (40_decoder.md R104, R110 to R118, R121). -/
def decodeCoeffs (b : Vector Byte 18) : Coeffs :=
  { c0 := coefficient 12 ((b[0].toNat <<< 4) ||| (b[1].toNat >>> 4))
    c1 := coefficient 12 (((b[1].toNat &&& 0x0F) <<< 8) ||| b[2].toNat)
    c00 := coefficient 20 ((b[3].toNat <<< 12) ||| (b[4].toNat <<< 4) ||| (b[5].toNat >>> 4))
    c10 := coefficient 20 (((b[5].toNat &&& 0x0F) <<< 16) ||| (b[6].toNat <<< 8) ||| b[7].toNat)
    c01 := coefficient 16 ((b[8].toNat <<< 8) ||| b[9].toNat)
    c11 := coefficient 16 ((b[10].toNat <<< 8) ||| b[11].toNat)
    c20 := coefficient 16 ((b[12].toNat <<< 8) ||| b[13].toNat)
    c21 := coefficient 16 ((b[14].toNat <<< 8) ||| b[15].toNat)
    c30 := coefficient 16 ((b[16].toNat <<< 8) ||| b[17].toNat) }

/-- The 18 bytes that decode to given coefficients, `m_x` being a register's own pattern (40_decoder.md R122). The block
has no command for it. -/
def encodeCoeffs (c : Coeffs) : Vector Byte 18 :=
  #v[c.c0.extractLsb' 4 8,
     c.c0.extractLsb' 0 4 ++ c.c1.extractLsb' 8 4,
     c.c1.extractLsb' 0 8,
     c.c00.extractLsb' 12 8,
     c.c00.extractLsb' 4 8,
     c.c00.extractLsb' 0 4 ++ c.c10.extractLsb' 16 4,
     c.c10.extractLsb' 8 8,
     c.c10.extractLsb' 0 8,
     c.c01.extractLsb' 8 8,
     c.c01.extractLsb' 0 8,
     c.c11.extractLsb' 8 8,
     c.c11.extractLsb' 0 8,
     c.c20.extractLsb' 8 8,
     c.c20.extractLsb' 0 8,
     c.c21.extractLsb' 8 8,
     c.c21.extractLsb' 0 8,
     c.c30.extractLsb' 8 8,
     c.c30.extractLsb' 0 8]

/-- `CLD idx, data` (40_decoder.md R102). -/
def execCld (idx data : Byte) (s : State) : Host.Outcome State Fault Refusal :=
  if h : idx.toNat < 18 then
    succeed 0#64 { s with cb := s.cb.set idx.toNat data h, cbv := s.cbv.set idx.toNat true h }
  else raise .badIndex s

/-- `CDEC` (40_decoder.md R103). -/
def execCdec (s : State) : Host.Outcome State Fault Refusal :=
  if s.calValid then raise .calLocked s
  else if !coefComplete s then raise .coefIncomplete s
  else succeed 0#64 { s with coef := decodeCoeffs s.cb, calValid := true }

end Sys2Proof.Machine
end

