-- ==== Sys2Proof/Machine/Control.lean ====
section
/-! DEFINITION. Read-out, status and control (spec 42_control.md): `RDC` (R170), `RDR` (R171), `RDS` (R172), `NOP` (R174),
`BERR` (R176) and `RST` (R177). -/

namespace Sys2Proof.Machine

/-- `RDC idx` (42_control.md R170): the index is checked before the calibration (60_exceptions.md R204). -/
def execRdc (idx : Byte) (s : State) : Host.Outcome State Fault Refusal :=
  match coefAt s.coef idx.toNat with
  | none => raise .badIndex s
  | some v => if !s.calValid then raise .notCalibrated s else succeed (sext64 v) s

/-- `RDR idx` (42_control.md R171): readable at any time. -/
def execRdr (idx : Byte) (s : State) : Host.Outcome State Fault Refusal :=
  match resultAt s idx.toNat with
  | none => raise .badIndex s
  | some v => succeed v s

/-- `RDS` (42_control.md R172). -/
def execRds (s : State) : Host.Outcome State Fault Refusal := succeedUnrecorded (zext64 (status s)) s

/-- `NOP` (42_control.md R174). -/
def execNop (s : State) : Host.Outcome State Fault Refusal := succeed 0#64 s

/-- `BERR` (42_control.md R176): the one command that changes registers and answers an error. -/
def execBerr (s : State) : Host.Outcome State Fault Refusal :=
  raise .busError { s with rbv := noRaw, cbv := if s.calValid then s.cbv else noCoef }

/-- `RST` (42_control.md R177). -/
def execRst (s : State) : Host.Outcome State Fault Refusal := succeed 0#64 (resetRegisters s)

end Sys2Proof.Machine
end

