-- ==== Sys2Proof/Machine/Binary64.lean ====
section
/-! DEFINITION. IEEE 754 binary64 with rounding roundTiesToEven (00_scope.md R10): `f64(n)`, `fadd`, `fmul`, `fdiv`,
each rounding the exact result once. Every finite value is a whole number of units of 2^-1074, so the exact result of
an operation is a ratio of two natural numbers with a sign, and rounding is a division. Log entries 4, 5 and 6. -/

namespace Sys2Proof

/-- How many units of 2^-1074 (the smallest positive binary64) make 1. -/
def F64.unitScale : Nat := 2 ^ 1074

/-- The sign bit. -/
def F64.sign (x : F64) : Bool := x.getLsbD 63

/-- The 11-bit biased exponent field. -/
def F64.expField (x : F64) : Nat := x.toNat / 2 ^ 52 % 2 ^ 11

/-- The 52-bit fraction field. -/
def F64.fracField (x : F64) : Nat := x.toNat % 2 ^ 52

/-- Neither an infinity nor a NaN. -/
def F64.isFinite (x : F64) : Bool := x.expField != 2047

/-- An infinity. -/
def F64.isInf (x : F64) : Bool := x.expField == 2047 && x.fracField == 0

/-- A NaN. -/
def F64.isNaN (x : F64) : Bool := x.expField == 2047 && x.fracField != 0

/-- The magnitude of a finite value in units of 2^-1074: a subnormal's fraction, or a normal's significand scaled. -/
def F64.magnitude (x : F64) : Nat :=
  if x.expField = 0 then x.fracField else (x.fracField + 2 ^ 52) * 2 ^ (x.expField - 1)

/-- The value of a finite `x` in units of 2^-1074. -/
def F64.units (x : F64) : Int := if x.sign then -(x.magnitude : Int) else (x.magnitude : Int)

/-- The real value of a finite `x`; every binary64 value is rational. Used by statements, not by the machine. -/
def F64.toRat (x : F64) : Rat := (x.units : Rat) / (F64.unitScale : Rat)

/-- The encoding with a sign bit and the 63 bits below it. -/
def F64.pack (neg : Bool) (body : Nat) : F64 := BitVec.ofNat 64 ((if neg then 2 ^ 63 else 0) + body)

/-- A zero of the given sign. -/
def F64.zero (neg : Bool) : F64 := F64.pack neg 0

/-- The 63 low bits of an infinity. -/
def F64.infBody : Nat := 0x7FF0000000000000

/-- An infinity of the given sign. -/
def F64.inf (neg : Bool) : F64 := F64.pack neg F64.infBody

/-- The quiet NaN an operation gives: exponent field all ones and top fraction bit 1; its sign and the other 51
fraction bits are the free value `Config.nanBits` (log entry 4). -/
def F64.nan (op : Config.F64Op) (x y : F64) : F64 :=
  (Config.nanBits op x y).extractLsb' 51 1 ++ 0xFFF#12 ++ (Config.nanBits op x y).extractLsb' 0 51

/-- `n / d` rounded to the nearest natural number, a tie to the even one. -/
def roundHalfEven (n d : Nat) : Nat :=
  if d < 2 * (n % d) ∨ (2 * (n % d) = d ∧ n / d % 2 = 1) then n / d + 1 else n / d

/-- How far the last place of the binary64 values around `t` units lies above one unit: `t / 2^j` is below 2^53, and
at least 2^52 unless `j = 0`. -/
def F64.lastPlace (t : Nat) : Nat := Nat.log2 t - 52

/-- The magnitude `n / d` units rounded once to binary64 (roundTiesToEven), with the given sign. With `k` last places of
2^j units the low 63 bits are `j * 2^52 + k`, in the subnormal range, in the normal range and where `k` rounds up to the
next binade; from the encoding of infinity on, the result overflows to it. -/
def F64.round (neg : Bool) (n d : Nat) : F64 :=
  F64.pack neg (min (F64.lastPlace (n / d) * 2 ^ 52 + roundHalfEven n (d * 2 ^ F64.lastPlace (n / d))) F64.infBody)

/-- `f64(n)`: the binary64 value equal to `n` (00_scope.md R10; exact for `|n| < 2^53`, and 0 gives +0.0). -/
def F64.ofInt (n : Int) : F64 := F64.round (decide (n < 0)) (n.natAbs * F64.unitScale) 1

/-- `fadd(a, b)`: the exact sum rounded once (00_scope.md R10). An exact zero sum is -0.0 only when both operands are
-0.0 (41_converter.md R162). -/
def fadd (x y : F64) : F64 :=
  if x.isNaN || y.isNaN then F64.nan .add x y
  else if x.isInf then (if y.isInf && (x.sign != y.sign) then F64.nan .add x y else x)
  else if y.isInf then y
  else if x.units + y.units = 0 then F64.zero (x.sign && y.sign)
  else F64.round (decide (x.units + y.units < 0)) (x.units + y.units).natAbs 1

/-- `fmul(a, b)`: the exact product rounded once (00_scope.md R10). -/
def fmul (x y : F64) : F64 :=
  if x.isNaN || y.isNaN then F64.nan .mul x y
  else if x.isInf || y.isInf then
    (if x.magnitude = 0 || y.magnitude = 0 then F64.nan .mul x y else F64.inf (x.sign != y.sign))
  else F64.round (x.sign != y.sign) (x.magnitude * y.magnitude) F64.unitScale

/-- `fdiv(a, b)`: the exact quotient rounded once (00_scope.md R10). -/
def fdiv (x y : F64) : F64 :=
  if x.isNaN || y.isNaN then F64.nan .div x y
  else if x.isInf then (if y.isInf then F64.nan .div x y else F64.inf (x.sign != y.sign))
  else if y.isInf then F64.zero (x.sign != y.sign)
  else if y.magnitude = 0 then
    (if x.magnitude = 0 then F64.nan .div x y else F64.inf (x.sign != y.sign))
  else F64.round (x.sign != y.sign) (x.magnitude * F64.unitScale) y.magnitude

end Sys2Proof
end

