-- ==== Sys2Proof/Machine/Converter.lean ====
section
/-! DEFINITION. The measurement scaler and the polynomial evaluator (spec 41_converter.md): the scalings (R133, R134), the
polynomials in the spec's evaluation order (R135, R136), and the commands `MLD` (R131), `CVT` (R140) and `CVP` (R150). -/

namespace Sys2Proof.Machine

/-- `scaleT(raw)` (41_converter.md R133). -/
def scaleT (raw : Int) : F64 := fdiv (F64.ofInt raw) (F64.ofInt Config.kT)

/-- `scaleP(raw)` (41_converter.md R134). -/
def scaleP (raw : Int) : F64 := fdiv (F64.ofInt raw) (F64.ofInt Config.kP)

/-- `polyT(c0, c1, tsc)` (41_converter.md R135). -/
def polyT (c0 c1 : Int) (tsc : F64) : F64 :=
  let a := fmul (F64.ofInt c0) Config.half
  let b := fmul (F64.ofInt c1) tsc
  fadd a b

/-- The results of the thirteen operations of 41_converter.md R136, under its names, and the last as `pres`. -/
structure PressureTree where
  t1 : F64
  t2 : F64
  t3 : F64
  t4 : F64
  t5 : F64
  s1 : F64
  t6 : F64
  s2 : F64
  t7 : F64
  t8 : F64
  t9 : F64
  t10 : F64
  pres : F64
deriving DecidableEq, Repr

/-- The thirteen binary64 operations of `polyP`, in the association 41_converter.md R136 fixes. -/
def pressureTree (c : Coeffs) (tsc psc : F64) : PressureTree :=
  let t1 := fmul psc (F64.ofInt c.c30.toInt)
  let t2 := fadd (F64.ofInt c.c20.toInt) t1
  let t3 := fmul psc t2
  let t4 := fadd (F64.ofInt c.c10.toInt) t3
  let t5 := fmul psc t4
  let s1 := fadd (F64.ofInt c.c00.toInt) t5
  let t6 := fmul tsc (F64.ofInt c.c01.toInt)
  let s2 := fadd s1 t6
  let t7 := fmul tsc psc
  let t8 := fmul psc (F64.ofInt c.c21.toInt)
  let t9 := fadd (F64.ofInt c.c11.toInt) t8
  let t10 := fmul t7 t9
  { t1 := t1, t2 := t2, t3 := t3, t4 := t4, t5 := t5, s1 := s1, t6 := t6, s2 := s2, t7 := t7, t8 := t8, t9 := t9,
    t10 := t10, pres := fadd s2 t10 }

/-- `polyP(c00, ..., c30, tsc, psc)` (41_converter.md R136). -/
def polyP (c : Coeffs) (tsc psc : F64) : F64 := (pressureTree c tsc psc).pres

/-- `MLD idx, data` (41_converter.md R131). -/
def execMld (idx data : Byte) (s : State) : Host.Outcome State Fault Refusal :=
  if h : idx.toNat < 3 then
    succeed 0#64 { s with rb := s.rb.set idx.toNat data h, rbv := s.rbv.set idx.toNat true h }
  else raise .badIndex s

/-- `CVT` (41_converter.md R140). -/
def execCvt (s : State) : Host.Outcome State Fault Refusal :=
  if !s.calValid then raise .notCalibrated s
  else if !rawComplete s then raise .rawIncomplete s
  else
    succeed 0#64
      { s with
        tsc := scaleT (raw24 s.rb)
        temp := polyT s.coef.c0.toInt s.coef.c1.toInt (scaleT (raw24 s.rb))
        tscValid := true
        rbv := noRaw }

/-- `CVP` (41_converter.md R150). -/
def execCvp (s : State) : Host.Outcome State Fault Refusal :=
  if !s.calValid then raise .notCalibrated s
  else if !s.tscValid then raise .noTsc s
  else if !rawComplete s then raise .rawIncomplete s
  else
    succeed 0#64
      { s with
        psc := scaleP (raw24 s.rb)
        pres := polyP s.coef s.tsc (scaleP (raw24 s.rb))
        prsValid := true
        rbv := noRaw }

end Sys2Proof.Machine
end

