-- ==== Sys2Proof/Machine/Dispatch.lean ====
section
/-! DEFINITION. One arm per command, each a direct call of its meaning. -/

namespace Sys2Proof.Machine

def exec (i : Instr) (s : State) : Host.Outcome State Fault Refusal :=
  match i with
  | .nop => Sys2Proof.Machine.execNop s
  | .cld idx data => Sys2Proof.Machine.execCld idx data s
  | .cdec => Sys2Proof.Machine.execCdec s
  | .mld idx data => Sys2Proof.Machine.execMld idx data s
  | .cvt => Sys2Proof.Machine.execCvt s
  | .cvp => Sys2Proof.Machine.execCvp s
  | .rdc idx => Sys2Proof.Machine.execRdc idx s
  | .rdr idx => Sys2Proof.Machine.execRdr idx s
  | .rds => Sys2Proof.Machine.execRds s
  | .berr => Sys2Proof.Machine.execBerr s
  | .rst => Sys2Proof.Machine.execRst s

end Sys2Proof.Machine
end

