-- ==== Sys2Proof/Machine/Transaction.lean ====
section
/-! DEFINITION. One transaction (10_state.md R36): the host presents a word, the block decodes it (30_encoding.md R76)
and performs it, or answers with the decoder's rejection. -/

namespace Sys2Proof.Machine

/-- The block performs one command word (30_encoding.md R76). -/
def perform (w : CmdWord) (s : State) : Host.Outcome State Fault Refusal :=
  match decode w with
  | .ok i => exec i s
  | .error r => raise (rejectCode r) s

/-- The block takes one host event (10_state.md R36). -/
def takeEvent (e : HostEvent) (s : State) : Host.Outcome State Fault Refusal :=
  match e with
  | .command w => perform w s
  | .rst => takeReset s

end Sys2Proof.Machine
end

