-- ==== Sys2Proof/Machine/Step.lean ====
section
/-! DEFINITION. The step: the block takes the next host event (10_state.md R36; 20_memory.md R59). -/

namespace Sys2Proof.Machine

/-- One host event is taken and completed; when the host presents nothing more there is no block step (60_exceptions.md
R216; log entry 2). -/
def step (s : State) : Host.Outcome State Fault Refusal :=
  match nextEvent s with
  | none => .fault .hostStopped
  | some (e, t) => takeEvent e t

/-- The host presents next the command word whose bits are `w` (log entries 1 and 14). -/
def State.withFetchWord (s : State) (nbits w : Nat) : State := s.present (tableWord nbits w)

end Sys2Proof.Machine
end

