-- ==== Sys2Proof/Machine/Assembler.lean ====
section
/-! DEFINITION. The assembler (spec 30_encoding.md): the line syntax of R84 and the pseudo-instructions of R85. It is no
part of the block, which sees only the words. Log entry 15. -/

namespace Sys2Proof.Machine

/-- `CLD k, b0 ; CLD k+1, b1 ; ...` -/
def loadsFrom : Nat → List Byte → List Instr
  | _, [] => []
  | k, b :: bs => .cld (BitVec.ofNat 8 k) b :: loadsFrom (k + 1) bs

/-- `LOADCAL b0, ..., b17` (30_encoding.md R85). -/
def loadcal (bytes : Vector Byte 18) : List Instr := loadsFrom 0 bytes.toList ++ [.cdec]

/-- `CONVT b0, b1, b2` (30_encoding.md R85). -/
def convt (b0 b1 b2 : Byte) : List Instr := [.mld 0#8 b0, .mld 1#8 b1, .mld 2#8 b2, .cvt]

/-- `CONVP b0, b1, b2` (30_encoding.md R85). -/
def convp (b0 b1 b2 : Byte) : List Instr := [.mld 0#8 b0, .mld 1#8 b1, .mld 2#8 b2, .cvp]

/-- A line's parts: words between blanks and commas, and the commas. -/
inductive Token where
  /-- A mnemonic or a number. -/
  | word (cs : List Char)
  /-- A comma. -/
  | comma
deriving DecidableEq, Repr

/-- The word gathered so far, if there is one. -/
def gathered (acc : List Char) : List Token :=
  match acc with
  | [] => []
  | c :: cs => [.word (c :: cs).reverse]

/-- The tokens of a line up to its comment; `acc` is the word being read, backwards. -/
def tokens : List Char → List Char → List Token
  | [], acc => gathered acc
  | c :: cs, acc =>
    if c = ';' then gathered acc
    else if c = ' ' ∨ c = '\t' then gathered acc ++ tokens cs []
    else if c = ',' then gathered acc ++ Token.comma :: tokens cs []
    else tokens cs (c :: acc)

/-- The value of a digit in a base of at most 16. -/
def digit (base : Nat) (c : Char) : Option Nat :=
  let n := c.toNat
  let v :=
    if 48 ≤ n ∧ n ≤ 57 then n - 48
    else if 65 ≤ n ∧ n ≤ 70 then n - 55
    else if 97 ≤ n ∧ n ≤ 102 then n - 87
    else 16
  if v < base then some v else none

/-- The digits of a number, most significant first, added to what stands before them. -/
def digits (base : Nat) : List Char → Nat → Option Nat
  | [], acc => some acc
  | c :: cs, acc =>
    match digit base c with
    | none => none
    | some v => digits base cs (acc * base + v)

/-- A number, decimal or `0x`-prefixed hexadecimal (30_encoding.md R84). -/
def number (cs : List Char) : Option Nat :=
  match cs with
  | [] => none
  | '0' :: 'x' :: c :: rest => digits 16 (c :: rest) 0
  | c :: rest => digits 10 (c :: rest) 0

/-- Numbers separated by commas, after a first one. -/
def moreOperands : List Token → Option (List Nat)
  | [] => some []
  | .comma :: .word w :: rest =>
    match number w, moreOperands rest with
    | some n, some ns => some (n :: ns)
    | _, _ => none
  | _ => none

/-- The operands of a line: none, or numbers separated by commas (30_encoding.md R84). -/
def operands (ts : List Token) : Option (List Nat) :=
  match ts with
  | [] => some []
  | t :: rest => moreOperands (.comma :: t :: rest)

/-- The mnemonics of 30_encoding.md R74, in upper case. -/
def mnemonics : List (List Char × Opcode) :=
  [(['N', 'O', 'P'], .nop), (['C', 'L', 'D'], .cld), (['C', 'D', 'E', 'C'], .cdec), (['M', 'L', 'D'], .mld),
   (['C', 'V', 'T'], .cvt), (['C', 'V', 'P'], .cvp), (['R', 'D', 'C'], .rdc), (['R', 'D', 'R'], .rdr),
   (['R', 'D', 'S'], .rds), (['B', 'E', 'R', 'R'], .berr), (['R', 'S', 'T'], .rst)]

/-- The command of an opcode and operands that fit its form, its limit and a byte; else the line is refused (30_encoding.md
R84). -/
def commandOf (op : Opcode) (ns : List Nat) : Option Instr :=
  match op.form, ns with
  | .z, [] => some (op.select 0#8 0#8)
  | .i, [k] => if k < op.limit then some (op.select (BitVec.ofNat 8 k) 0#8) else none
  | .id, [k, b] => if k < op.limit ∧ b < 256 then some (op.select (BitVec.ofNat 8 k) (BitVec.ofNat 8 b)) else none
  | _, _ => none

/-- The expansion of a pseudo-instruction's name and byte operands (30_encoding.md R85). -/
def expansionOf (name : List Char) (ns : List Nat) : Option (List Instr) :=
  if ns.all (fun n => decide (n < 256)) then
    match ns.map (BitVec.ofNat 8) with
    | [b0, b1, b2] =>
      if name = ['C', 'O', 'N', 'V', 'T'] then some (convt b0 b1 b2)
      else if name = ['C', 'O', 'N', 'V', 'P'] then some (convp b0 b1 b2)
      else none
    | bs =>
      if name = ['L', 'O', 'A', 'D', 'C', 'A', 'L'] ∧ bs.length = 18 then some (loadsFrom 0 bs ++ [.cdec])
      else none
  else none

/-- The commands of one line; none when the assembler refuses it (30_encoding.md R84, R85). A line with nothing before its
comment has none. -/
def assembleLine (line : List Char) : Option (List Instr) :=
  match tokens line [] with
  | [] => some []
  | .comma :: _ => none
  | .word name :: rest =>
    match operands rest with
    | none => none
    | some ns =>
      match mnemonics.lookup name with
      | some op => (commandOf op ns).map (fun i => [i])
      | none => expansionOf name ns

end Sys2Proof.Machine
end

