-- ==== Sys2Proof/Machine/HostProtocol.lean ====
section
/-! DEFINITION. The host's sequences (spec 70_reset_and_hazards.md R240 to R243) over the sensor register space (20_memory.md
R51): what the host does on the bus, and the events it presents to the block when the bus answers as given. The sensor, the
bus and the waiting are outside the block (00_scope.md R3, R4): here a bus transaction is only its answer (log entry 11). -/

namespace Sys2Proof.Machine

/-- One action of the host (00_scope.md R11; 70_reset_and_hazards.md R240 to R243). -/
inductive HostAction where
  /-- `BusWrite(reg, value)`. -/
  | busWrite (reg value : Byte)
  /-- `b = BusRead(reg)` and then `CLD k, b`. -/
  | readCld (reg k : Byte)
  /-- `b = BusRead(reg)` and then `MLD k, b`. -/
  | readMld (reg k : Byte)
  /-- Wait at least this long. -/
  | wait (time : Nat)
  /-- Present a command. -/
  | issue (i : Instr)
deriving DecidableEq, Repr

/-- How a bus transaction ends (20_memory.md R51). One that never ends has no answer (60_exceptions.md R216). -/
inductive BusAnswer where
  /-- It succeeded; `b` is the byte a read gives, and means nothing after a write. -/
  | done (b : Byte)
  /-- `BusError`. -/
  | failed
deriving DecidableEq, Repr

/-- The events the host presents while it carries out a sequence, given the answers of its bus transactions in order. At
a failure it presents `BERR` and the sequence has failed (70_reset_and_hazards.md R240 to R242); at a transaction that
never ends it presents nothing more (60_exceptions.md R216). -/
def hostEvents : List HostAction → List BusAnswer → List HostEvent
  | [], _ => []
  | .issue i :: rest, answers => .command (encode i) :: hostEvents rest answers
  | .wait _ :: rest, answers => hostEvents rest answers
  | .busWrite _ _ :: rest, .done _ :: answers => hostEvents rest answers
  | .readCld _ k :: rest, .done b :: answers => .command (encode (.cld k b)) :: hostEvents rest answers
  | .readMld _ k :: rest, .done b :: answers => .command (encode (.mld k b)) :: hostEvents rest answers
  | .busWrite _ _ :: _, .failed :: _ => [.command (encode .berr)]
  | .readCld _ _ :: _, .failed :: _ => [.command (encode .berr)]
  | .readMld _ _ :: _, .failed :: _ => [.command (encode .berr)]
  | .busWrite _ _ :: _, [] => []
  | .readCld _ _ :: _, [] => []
  | .readMld _ _ :: _, [] => []

/-- The three configuration writes (70_reset_and_hazards.md R240; offsets and values 20_memory.md R51). -/
def configure : List HostAction :=
  [.busWrite 0x06#8 0x01#8, .busWrite 0x07#8 0x80#8, .busWrite 0x09#8 0x00#8]

/-- Coefficient byte `k` is read from sensor offset `0x10 + k` and loaded (70_reset_and_hazards.md R240). -/
def readCoef (k : Nat) : HostAction := .readCld (Config.coefOffset + BitVec.ofNat 8 k) (BitVec.ofNat 8 k)

/-- `construct()` (70_reset_and_hazards.md R240). -/
def construct : List HostAction := configure ++ (List.range Config.ncb).map readCoef ++ [.issue .cdec]

/-- `measure_temperature()` (70_reset_and_hazards.md R241). -/
def measureTemperature : List HostAction :=
  [.busWrite 0x08#8 0x02#8, .wait Config.tSettleT,
   .readMld (Config.tmpAddr 0) 0#8, .readMld (Config.tmpAddr 1) 1#8, .readMld (Config.tmpAddr 2) 2#8, .issue .cvt]

/-- `measure_pressure()` (70_reset_and_hazards.md R242). -/
def measurePressure : List HostAction :=
  [.busWrite 0x08#8 0x01#8, .wait Config.tSettleP,
   .readMld (Config.psrAddr 0) 0#8, .readMld (Config.psrAddr 1) 1#8, .readMld (Config.psrAddr 2) 2#8, .issue .cvp]

/-- One turn of the driving loop (70_reset_and_hazards.md R243). -/
def cycle : List HostAction :=
  measureTemperature ++ measurePressure ++ [.issue (.rdr 0#8), .issue (.rdr 1#8), .wait Config.loopPause]

/-- `construct()` and then `n` turns of the driving loop (70_reset_and_hazards.md R243, R244). -/
def drive (n : Nat) : List HostAction := construct ++ (List.replicate n cycle).flatten

end Sys2Proof.Machine
end

