-- ==== Sys2Proof/Safety.lean ====
section
/-! DEFINITION. The words claims are made in: the registers apart from the model's own fields, how a command succeeds or
fails, the code the spec gives every word, correct rounding, and the invariant of the block. -/

namespace Sys2Proof.Machine

/-- The registers of the block alone (10_state.md R20 to R31): the outputs and the host's stream set aside. -/
def State.registers (s : State) : State := { s with answer := none, stream := [] }

/-- The command ends in a next state with response `OK`, data result `dout`, and the registers of `after`. -/
def Succeeds (o : Host.Outcome State Fault Refusal) (dout : BitVec 64) (after : State) : Prop :=
  ∃ t, o = .next t ∧ t.answer = some { resp := 0#4, dout := dout } ∧ t.registers = after.registers

/-- The command ends in a next state with an error response and `dout = 0`; of the registers it leaves those of `s` but for
the recording of the code (00_scope.md R12; 60_exceptions.md R203). -/
def Fails (o : Host.Outcome State Fault Refusal) (code : RespCode) (s : State) : Prop :=
  ∃ t, o = .next t ∧ t.answer = some { resp := code, dout := 0#64 } ∧
    t.registers = { s.registers with
      lastErr := code
      firstErr := if s.firstErr = 0#4 then code else s.firstErr }

/-- No command has failed since reset: the premise 60_exceptions.md R203 names. -/
def NoErrorSinceReset (s : State) : Prop := s.firstErr = 0#4

/-- The response the spec gives the word `w` in the state `s`: the decode checks of 30_encoding.md R76, then the state checks
of 60_exceptions.md R204, the first that fails. -/
def responseCode (w : CmdWord) (s : State) : RespCode :=
  let op := (opField w).toNat
  let idx := (idxField w).toNat
  if 10 < op then 1#4
  else if rsvField w ≠ 0#8 then 1#4
  else if op ∈ [0, 2, 4, 5, 8, 9, 10] ∧ (idxField w ≠ 0#8 ∨ dataField w ≠ 0#8) then 1#4
  else if op ∈ [6, 7] ∧ dataField w ≠ 0#8 then 1#4
  else if op = 1 ∧ 18 ≤ idx ∨ op = 3 ∧ 3 ≤ idx ∨ op = 6 ∧ 9 ≤ idx ∨ op = 7 ∧ 4 ≤ idx then 2#4
  else if op = 2 then
    (if s.calValid = true then 4#4 else if ∃ k : Fin 18, s.cbv[k] = false then 3#4 else 0#4)
  else if op = 4 then
    (if s.calValid = false then 5#4 else if ∃ k : Fin 3, s.rbv[k] = false then 6#4 else 0#4)
  else if op = 5 then
    (if s.calValid = false then 5#4 else if s.tscValid = false then 7#4
      else if ∃ k : Fin 3, s.rbv[k] = false then 6#4 else 0#4)
  else if op = 6 then (if s.calValid = false then 5#4 else 0#4)
  else if op = 9 then 8#4
  else 0#4

/-- `f` is the binary64 value roundTiesToEven gives the real `x` (00_scope.md R10): finite, no finite value nearer, and of two
equally near ones the one with an even significand (the significand's last bit is the encoding's). -/
def RoundsTo (x : Rat) (f : F64) : Prop :=
  f.isFinite = true ∧ ∀ g : F64, g.isFinite = true →
    |f.toRat - x| ≤ |g.toRat - x| ∧ (|f.toRat - x| = |g.toRat - x| → f.toRat = g.toRat ∨ f.getLsbD 0 = false)

/-- The greatest finite binary64 value, `(2^53 - 1) * 2^971`. -/
def maxFinite : Rat := (2 ^ 53 - 1) * 2 ^ 971

/-- A raw measurement is an `s24` (41_converter.md R132). -/
def IsRaw (raw : Int) : Prop := -8388608 ≤ raw ∧ raw ≤ 8388607

/-- Every coefficient is in its range (40_decoder.md R120). -/
def Coeffs.InRange (c : Coeffs) : Prop :=
  (∀ x ∈ [c.c0.toInt, c.c1.toInt], -2048 ≤ x ∧ x ≤ 2047) ∧
  (∀ x ∈ [c.c00.toInt, c.c10.toInt], -524288 ≤ x ∧ x ≤ 524287) ∧
  (∀ x ∈ [c.c01.toInt, c.c11.toInt, c.c20.toInt, c.c21.toInt, c.c30.toInt], -32768 ≤ x ∧ x ≤ 32767)

/-- The results of the thirteen operations, in the order of 41_converter.md R136. -/
def PressureTree.values (p : PressureTree) : List F64 :=
  [p.t1, p.t2, p.t3, p.t4, p.t5, p.s1, p.t6, p.s2, p.t7, p.t8, p.t9, p.t10, p.pres]

/-- One of the commands 42_control.md R173 lets stand between two reads: a read, `RDS`, `NOP`, `CLD` or `MLD`. -/
def IsQuiet : Instr → Bool
  | .nop => true
  | .cld _ _ => true
  | .cdec => false
  | .mld _ _ => true
  | .cvt => false
  | .cvp => false
  | .rdc _ => true
  | .rdr _ => true
  | .rds => true
  | .berr => false
  | .rst => false

/-- One step that performs a quiet command, or a command that fails (42_control.md R173). -/
def QuietStep (s t : State) : Prop :=
  step s = .next t ∧ ∃ w rest, s.stream = .command w :: rest ∧
    ((∃ i, decode w = .ok i ∧ IsQuiet i = true) ∨ (∃ r, t.answer = some r ∧ r.resp ≠ 0#4))

/-- The invariant of the block. Every step keeps it from every state that has it; no command's meaning assumes it. -/
structure BlockInv (s : State) : Prop where
  /-- Codes 9 to 15 are never produced (60_exceptions.md R201). -/
  lastErr_le : s.lastErr.toNat ≤ 8
  /-- Codes 9 to 15 are never produced (60_exceptions.md R201). -/
  firstErr_le : s.firstErr.toNat ≤ 8
  /-- No failure since reset: the last recorded code is OK (60_exceptions.md R203). -/
  no_error : s.firstErr = 0#4 → s.lastErr = 0#4
  /-- A calibrated block keeps every coefficient byte valid (42_control.md R176, 40_decoder.md R103). -/
  calibrated : s.calValid = true → ∀ k : Fin 18, s.cbv[k] = true
  /-- Before `CDEC` the coefficients are their reset value and nothing was converted (10_state.md R24). -/
  uncalibrated : s.calValid = false → s.coef = Coeffs.reset ∧ s.tscValid = false
  /-- Before the first `CVT` the temperature registers are +0.0 and no `CVP` has completed (10_state.md R28, R29). -/
  no_temperature : s.tscValid = false → s.tsc = 0#64 ∧ s.temp = 0#64 ∧ s.prsValid = false
  /-- `TSC` and `TEMP` belong together and to one raw value (41_converter.md R140). -/
  temperature : s.tscValid = true → ∃ raw, IsRaw raw ∧ s.tsc = scaleT raw ∧
    s.temp = polyT s.coef.c0.toInt s.coef.c1.toInt (scaleT raw)
  /-- Before the first `CVP` the pressure registers are +0.0 (10_state.md R29). -/
  no_pressure : s.prsValid = false → s.psc = 0#64 ∧ s.pres = 0#64
  /-- `PSC` and `PRES` belong together, to one raw value and to some earlier `TSC` (41_converter.md R150, R165). -/
  pressure : s.prsValid = true → ∃ rawT raw, IsRaw rawT ∧ IsRaw raw ∧ s.psc = scaleP raw ∧
    s.pres = polyP s.coef (scaleT rawT) (scaleP raw)

end Sys2Proof.Machine
end

