-- ==== Sys2Proof/Certificates/Slice0/Obligations.lean ====
section
/-! DEFINITION. The statements for the provers, each from the spec's numbered rules. `registers` sets aside the two fields that
are the model's own, `answer` and `stream` (log entries 1 and 3); `Succeeds` and `Fails` (Safety.lean) each say that the outcome
is a next state, what it answers, and every register in it. -/

open Sys2Proof Sys2Proof.Machine

/-! ### Encoding -/

/-- Decoding the word of a well-formed command gives the command back, for every operand its encoding admits (30_encoding.md
R71, R74). -/
def Obligations.DecodeInvertsEncode : Prop :=
  ∀ i : Instr, i.wellFormed = true → decode (encode i) = .ok i

/-- A word that decodes to a command is that command's word, and the command is well formed: no other word means it. -/
def Obligations.DecodedWordIsTheEncodedWord : Prop :=
  ∀ (w : CmdWord) (i : Instr), decode w = .ok i → i.wellFormed = true ∧ encode i = w

/-- 30_encoding.md R74: no word matches two rows. -/
def Obligations.OpcodeRowsAreDisjoint : Prop :=
  ∀ (p q : Opcode) (w : CmdWord), p.matchesWord w = true → q.matchesWord w = true → p = q

/-- 30_encoding.md R75: the illegal words are those that match no row, which are those with a wrong opcode, `RSV` or
must-be-zero field, and each is answered `ILLEGAL_CMD` with no register changed but the error registers. -/
def Obligations.IllegalWordsMatchNoRow : Prop :=
  ∀ (w : CmdWord) (s : State),
    (decode w = .error .illegalCmd ↔ ∀ p : Opcode, p.matchesWord w = false) ∧
    ((∀ p : Opcode, p.matchesWord w = false) ↔
      (10 < (opField w).toNat ∨ rsvField w ≠ 0#8 ∨
        ((opField w).toNat ∈ [0, 2, 4, 5, 8, 9, 10] ∧ (idxField w ≠ 0#8 ∨ dataField w ≠ 0#8)) ∨
        ((opField w).toNat ∈ [6, 7] ∧ dataField w ≠ 0#8))) ∧
    ((∀ p : Opcode, p.matchesWord w = false) → Fails (step (s.present w)) 1#4 s)

/-- 30_encoding.md R76: the decoder's checks in their order, what each answers, and the row a word that passes them all is
performed by. -/
def Obligations.DecodeChecksInOrder : Prop :=
  ∀ (w : CmdWord) (s : State),
    (10 < (opField w).toNat → decode w = .error .illegalCmd) ∧
    (rsvField w ≠ 0#8 → decode w = .error .illegalCmd) ∧
    ((opField w).toNat ∈ [0, 2, 4, 5, 8, 9, 10] → (idxField w ≠ 0#8 ∨ dataField w ≠ 0#8) →
      decode w = .error .illegalCmd) ∧
    ((opField w).toNat ∈ [6, 7] → dataField w ≠ 0#8 → decode w = .error .illegalCmd) ∧
    (rsvField w = 0#8 → opField w = 1#8 → decode w =
      if 18 ≤ (idxField w).toNat then .error .badIndex else .ok (.cld (idxField w) (dataField w))) ∧
    (rsvField w = 0#8 → opField w = 3#8 → decode w =
      if 3 ≤ (idxField w).toNat then .error .badIndex else .ok (.mld (idxField w) (dataField w))) ∧
    (rsvField w = 0#8 → dataField w = 0#8 → opField w = 6#8 → decode w =
      if 9 ≤ (idxField w).toNat then .error .badIndex else .ok (.rdc (idxField w))) ∧
    (rsvField w = 0#8 → dataField w = 0#8 → opField w = 7#8 → decode w =
      if 4 ≤ (idxField w).toNat then .error .badIndex else .ok (.rdr (idxField w))) ∧
    (rsvField w = 0#8 → idxField w = 0#8 → dataField w = 0#8 →
      (opField w = 0#8 → decode w = .ok .nop) ∧ (opField w = 2#8 → decode w = .ok .cdec) ∧
      (opField w = 4#8 → decode w = .ok .cvt) ∧ (opField w = 5#8 → decode w = .ok .cvp) ∧
      (opField w = 8#8 → decode w = .ok .rds) ∧ (opField w = 9#8 → decode w = .ok .berr) ∧
      (opField w = 10#8 → decode w = .ok .rst)) ∧
    (decode w = .error .illegalCmd → Fails (step (s.present w)) 1#4 s) ∧
    (decode w = .error .badIndex → Fails (step (s.present w)) 2#4 s) ∧
    (∀ i, decode w = .ok i → step (s.present w) = exec i s)

/-- 30_encoding.md R78: the spec's own encoding examples. -/
def Obligations.SpecExampleWordsDecode : Prop :=
  decode 0x00000000#32 = .ok .nop ∧ decode 0x01000000#32 = .ok (.cld 0#8 0x00#8) ∧
  decode 0x01010010#32 = .ok (.cld 1#8 0x10#8) ∧ decode 0x011100EC#32 = .ok (.cld 17#8 0xEC#8) ∧
  decode 0x02000000#32 = .ok .cdec ∧ decode 0x03000008#32 = .ok (.mld 0#8 0x08#8) ∧
  decode 0x030200FF#32 = .ok (.mld 2#8 0xFF#8) ∧ decode 0x04000000#32 = .ok .cvt ∧
  decode 0x05000000#32 = .ok .cvp ∧ decode 0x06080000#32 = .ok (.rdc 8#8) ∧
  decode 0x07010000#32 = .ok (.rdr 1#8) ∧ decode 0x08000000#32 = .ok .rds ∧
  decode 0x09000000#32 = .ok .berr ∧ decode 0x0A000000#32 = .ok .rst

/-! ### The step -/

/-- When the word the host presents next decodes to a command, the step is that command's meaning in the state without the
event; nothing else is added around it. The stream is the model's own field (log entry 1). -/
def Obligations.StepRunsTheDecodedCommand : Prop :=
  ∀ (s : State) (w : CmdWord) (rest : List HostEvent) (i : Instr),
    s.stream = .command w :: rest → decode w = .ok i → step s = exec i { s with stream := rest }

/-- The model's choice (log entry 2): when the host presents nothing more, there is no block step. -/
def Obligations.NoStepWhenHostStops : Prop :=
  ∀ s : State, s.stream = [] → step s = .fault .hostStopped

/-- 60_exceptions.md R216: every command completes and answers, in every state; every host event leads to a next state. -/
def Obligations.BlockNeverHangs : Prop :=
  (∀ (s : State) (w : CmdWord), ∃ t r, step (s.present w) = .next t ∧ t.answer = some r) ∧
  (∀ (s : State) (e : HostEvent) (rest : List HostEvent), s.stream = e :: rest → ∃ t, step s = .next t)

/-- 60_exceptions.md R204, with R201 and R202: every word in every state is answered with the code of the first check that
fails, and with `OK` when none does; no code above 8 is ever answered. -/
def Obligations.EveryWordGetsItsFirstFailingCode : Prop :=
  ∀ (s : State) (w : CmdWord), (responseCode w s).toNat ≤ 8 ∧
    ∃ t r, step (s.present w) = .next t ∧ t.answer = some r ∧ r.resp = responseCode w s

/-- 60_exceptions.md R203: what every command leaves in the error registers. -/
def Obligations.EveryCommandRecordsItsCode : Prop :=
  ∀ (s t : State) (w : CmdWord) (r : Response), step (s.present w) = .next t → t.answer = some r →
    (w = 0x08000000#32 → t.lastErr = s.lastErr ∧ t.firstErr = s.firstErr) ∧
    (w = 0x0A000000#32 → t.lastErr = 0#4 ∧ t.firstErr = 0#4) ∧
    (w ≠ 0x08000000#32 → w ≠ 0x0A000000#32 → t.lastErr = r.resp ∧
      t.firstErr = if r.resp ≠ 0#4 ∧ s.firstErr = 0#4 then r.resp else s.firstErr)

/-- 60_exceptions.md R200: a command that answers an error changes no register but the error registers, `BERR` excepted. -/
def Obligations.FailingCommandsChangeNothingElse : Prop :=
  ∀ (s t : State) (w : CmdWord) (r : Response), step (s.present w) = .next t → t.answer = some r → r.resp ≠ 0#4 →
    w ≠ 0x09000000#32 → Fails (step (s.present w)) r.resp s

/-- 42_control.md R175: `dout` is 0 unless the command is a successful `RDC`, `RDR` or `RDS`. -/
def Obligations.DataOnlyFromSuccessfulReads : Prop :=
  ∀ (s t : State) (w : CmdWord) (r : Response), step (s.present w) = .next t → t.answer = some r →
    ¬ (r.resp = 0#4 ∧ opField w ∈ [6#8, 7#8, 8#8]) → r.dout = 0#64

/-- 10_state.md R20: each register is written only by the commands its rule names (and by reset). -/
def Obligations.RegistersWrittenOnlyByTheirCommands : Prop :=
  ∀ (s t : State) (w : CmdWord), step (s.present w) = .next t → w ≠ 0x0A000000#32 →
    (t.cb ≠ s.cb → opField w = 1#8) ∧
    (t.cbv ≠ s.cbv → opField w = 1#8 ∨ (w = 0x09000000#32 ∧ s.calValid = false)) ∧
    (t.coef ≠ s.coef ∨ t.calValid ≠ s.calValid → w = 0x02000000#32 ∧ s.calValid = false) ∧
    (t.rb ≠ s.rb → opField w = 3#8) ∧
    (t.rbv ≠ s.rbv → opField w = 3#8 ∨ w ∈ [0x04000000#32, 0x05000000#32, 0x09000000#32]) ∧
    (t.tsc ≠ s.tsc ∨ t.temp ≠ s.temp ∨ t.tscValid ≠ s.tscValid → w = 0x04000000#32) ∧
    (t.psc ≠ s.psc ∨ t.pres ≠ s.pres ∨ t.prsValid ≠ s.prsValid → w = 0x05000000#32) ∧
    (t.lastErr ≠ s.lastErr ∨ t.firstErr ≠ s.firstErr → w ≠ 0x08000000#32)

/-- No command's meaning reads or changes what the host still presents (10_state.md R34: the stream is the host's; log
entries 1 and 16). -/
def Obligations.CommandsLeaveTheStream : Prop :=
  ∀ (i : Instr) (s t : State), exec i s = .next t → t.stream = s.stream

/-- The model's choice (log entry 7): a command whose index is past its limit, which the decoder never gives, answers
`BAD_INDEX` from its meaning too. -/
def Obligations.IndexPastLimitAnswersBadIndex : Prop :=
  ∀ (s : State) (i : Instr), i.wellFormed = false → Fails (exec i s) 2#4 s

/-! ### Reset -/

/-- 10_state.md R33 and 70_reset_and_hazards.md R230: the reset value of every register; `rst` and a legal `RST` set them,
`rst` without a response and `RST` with `OK`. -/
def Obligations.ResetSetsEveryRegister : Prop :=
  ((∀ k : Fin 18, State.reset.cb[k] = 0x00#8 ∧ State.reset.cbv[k] = false) ∧
    State.reset.coef = ⟨0#12, 0#12, 0#20, 0#20, 0#16, 0#16, 0#16, 0#16, 0#16⟩ ∧ State.reset.calValid = false ∧
    (∀ k : Fin 3, State.reset.rb[k] = 0x00#8 ∧ State.reset.rbv[k] = false) ∧
    State.reset.tsc = 0x0000000000000000#64 ∧ State.reset.tscValid = false ∧ State.reset.psc = 0#64 ∧
    State.reset.temp = 0#64 ∧ State.reset.pres = 0#64 ∧ State.reset.prsValid = false ∧
    State.reset.lastErr = 0#4 ∧ State.reset.firstErr = 0#4) ∧
  (∀ (s : State) (rest : List HostEvent), s.stream = .rst :: rest →
    ∃ t, step s = .next t ∧ t.registers = State.reset.registers ∧ t.answer = none) ∧
  (∀ s : State, Succeeds (step (s.present 0x0A000000#32)) 0#64 State.reset)

/-! ### The commands -/

/-- 42_control.md R174. -/
def Obligations.NopOnlyClearsLastErr : Prop :=
  ∀ s : State,
    Succeeds (exec .nop s) 0#64 { s with lastErr := 0#4 } ∧
    decode 0x00000000#32 = .ok .nop ∧
    (∀ w, opField w = 0x00#8 → w ≠ 0x00000000#32 → Fails (step (s.present w)) 1#4 s)

/-- 40_decoder.md R102: the byte and its valid bit, every other register as before, whatever `CAL_VALID` is; the errors. -/
def Obligations.CldLoadsOneCoefficientByte : Prop :=
  ∀ (s : State) (idx rsv data : Byte),
    (idx.toNat < 18 →
      decode (commandWord 0x01#8 idx 0#8 data) = .ok (.cld idx data) ∧
      ∃ t, exec (.cld idx data) s = .next t ∧ t.answer = some { resp := 0#4, dout := 0#64 } ∧
        t.registers = { s.registers with cb := t.cb, cbv := t.cbv, lastErr := 0#4 } ∧
        ∀ k : Fin 18, t.cb[k] = (if k.val = idx.toNat then data else s.cb[k]) ∧
          t.cbv[k] = (if k.val = idx.toNat then true else s.cbv[k])) ∧
    (rsv ≠ 0#8 → Fails (step (s.present (commandWord 0x01#8 idx rsv data))) 1#4 s) ∧
    (18 ≤ idx.toNat → Fails (step (s.present (commandWord 0x01#8 idx 0#8 data))) 2#4 s)

/-- 40_decoder.md R103: its two errors in their order, and when neither holds the nine coefficients and `CAL_VALID`, every
other register as before; a second `CDEC` is then locked out. -/
def Obligations.CdecDecodesAllNine : Prop :=
  ∀ s : State,
    (s.calValid = true → Fails (exec .cdec s) 4#4 s) ∧
    (s.calValid = false → (∃ k : Fin 18, s.cbv[k] = false) → Fails (exec .cdec s) 3#4 s) ∧
    (s.calValid = false → (∀ k : Fin 18, s.cbv[k] = true) →
      Succeeds (exec .cdec s) 0#64 { s with coef := decodeCoeffs s.cb, calValid := true, lastErr := 0#4 } ∧
      ∀ t, exec .cdec s = .next t → Fails (exec .cdec t) 4#4 t) ∧
    decodeCoeffs (Vector.replicate 18 0x00#8) = ⟨0, 0, 0, 0, 0, 0, 0, 0, 0⟩ ∧
    decodeCoeffs (Vector.replicate 18 0xFF#8) = ⟨-1, -1, -1, -1, -1, -1, -1, -1, -1⟩ ∧
    decode 0x02000000#32 = .ok .cdec ∧
    (∀ w, opField w = 0x02#8 → w ≠ 0x02000000#32 → Fails (step (s.present w)) 1#4 s)

/-- 41_converter.md R131: the byte and its valid bit, every other register as before; the errors. -/
def Obligations.MldLoadsOneRawByte : Prop :=
  ∀ (s : State) (idx rsv data : Byte),
    (idx.toNat < 3 →
      decode (commandWord 0x03#8 idx 0#8 data) = .ok (.mld idx data) ∧
      ∃ t, exec (.mld idx data) s = .next t ∧ t.answer = some { resp := 0#4, dout := 0#64 } ∧
        t.registers = { s.registers with rb := t.rb, rbv := t.rbv, lastErr := 0#4 } ∧
        ∀ k : Fin 3, t.rb[k] = (if k.val = idx.toNat then data else s.rb[k]) ∧
          t.rbv[k] = (if k.val = idx.toNat then true else s.rbv[k])) ∧
    (rsv ≠ 0#8 → Fails (step (s.present (commandWord 0x03#8 idx rsv data))) 1#4 s) ∧
    (3 ≤ idx.toNat → Fails (step (s.present (commandWord 0x03#8 idx 0#8 data))) 2#4 s)

/-- 41_converter.md R140: its two errors in their order, and when neither holds `TSC`, `TEMP`, `TSC_VALID` and the cleared
`RBV`, every other register as before; without new bytes a second `CVT` is refused; the corner cases raw 0 and the two ends. -/
def Obligations.CvtConvertsTemperature : Prop :=
  ∀ s : State,
    (s.calValid = false → Fails (exec .cvt s) 5#4 s) ∧
    (s.calValid = true → (∃ k : Fin 3, s.rbv[k] = false) → Fails (exec .cvt s) 6#4 s) ∧
    (s.calValid = true → (∀ k : Fin 3, s.rbv[k] = true) →
      ∃ t, exec .cvt s = .next t ∧ t.answer = some { resp := 0#4, dout := 0#64 } ∧
        t.registers = { s.registers with
          tsc := scaleT (raw24 s.rb)
          temp := polyT s.coef.c0.toInt s.coef.c1.toInt (scaleT (raw24 s.rb))
          tscValid := true
          rbv := t.rbv
          lastErr := 0#4 } ∧
        (∀ k : Fin 3, t.rbv[k] = false) ∧ Fails (exec .cvt t) 6#4 t) ∧
    decode 0x04000000#32 = .ok .cvt ∧
    (∀ w, opField w = 0x04#8 → w ≠ 0x04000000#32 → Fails (step (s.present w)) 1#4 s) ∧
    scaleT 0 = 0x0000000000000000#64 ∧ scaleT (-8388608) = 0xC030000000000000#64 ∧
    scaleT 8388607 = 0x402FFFFFC0000000#64 ∧
    (∀ c0 c1 : BitVec 12, (polyT c0.toInt c1.toInt (scaleT 0)).toRat = (c0.toInt : Rat) / 2) ∧
    (∀ c1 : BitVec 12, polyT 0 c1.toInt (scaleT 0) = 0x0000000000000000#64)

/-- 41_converter.md R150: its three errors in their order, and when none holds `PSC`, `PRES`, `PRS_VALID` and the cleared
`RBV`, every other register as before; the corner case raw 0. -/
def Obligations.CvpConvertsPressure : Prop :=
  ∀ s : State,
    (s.calValid = false → Fails (exec .cvp s) 5#4 s) ∧
    (s.calValid = true → s.tscValid = false → Fails (exec .cvp s) 7#4 s) ∧
    (s.calValid = true → s.tscValid = true → (∃ k : Fin 3, s.rbv[k] = false) → Fails (exec .cvp s) 6#4 s) ∧
    (s.calValid = true → s.tscValid = true → (∀ k : Fin 3, s.rbv[k] = true) →
      ∃ t, exec .cvp s = .next t ∧ t.answer = some { resp := 0#4, dout := 0#64 } ∧
        t.registers = { s.registers with
          psc := scaleP (raw24 s.rb)
          pres := polyP s.coef s.tsc (scaleP (raw24 s.rb))
          prsValid := true
          rbv := t.rbv
          lastErr := 0#4 } ∧
        ∀ k : Fin 3, t.rbv[k] = false) ∧
    decode 0x05000000#32 = .ok .cvp ∧
    (∀ w, opField w = 0x05#8 → w ≠ 0x05000000#32 → Fails (step (s.present w)) 1#4 s) ∧
    scaleP 0 = 0x0000000000000000#64 ∧
    (∀ (c : Coeffs) (rawT : Int), IsRaw rawT →
      polyP c (scaleT rawT) (scaleP 0) =
        fadd (F64.ofInt c.c00.toInt) (fmul (scaleT rawT) (F64.ofInt c.c01.toInt)))

/-- 42_control.md R170: the selected coefficient sign-extended to 64 bits, no register changed but `LAST_ERR`; the errors. -/
def Obligations.RdcReadsOneCoefficient : Prop :=
  ∀ (s : State) (idx rsv data : Byte),
    (idx.toNat < 9 → s.calValid = true →
      Succeeds (exec (.rdc idx) s)
        ([s.coef.c0.signExtend 64, s.coef.c1.signExtend 64, s.coef.c00.signExtend 64, s.coef.c10.signExtend 64,
          s.coef.c01.signExtend 64, s.coef.c11.signExtend 64, s.coef.c20.signExtend 64, s.coef.c21.signExtend 64,
          s.coef.c30.signExtend 64].getD idx.toNat 0#64)
        { s with lastErr := 0#4 }) ∧
    (idx.toNat < 9 → s.calValid = false → Fails (exec (.rdc idx) s) 5#4 s) ∧
    (idx.toNat < 9 → decode (commandWord 0x06#8 idx 0#8 0#8) = .ok (.rdc idx)) ∧
    (rsv ≠ 0#8 ∨ data ≠ 0#8 → Fails (step (s.present (commandWord 0x06#8 idx rsv data))) 1#4 s) ∧
    (9 ≤ idx.toNat → Fails (step (s.present (commandWord 0x06#8 idx 0#8 0#8))) 2#4 s)

/-- 42_control.md R171: the bits of the selected register at any time, no register changed but `LAST_ERR`; the errors; +0.0
from every index right after reset. -/
def Obligations.RdrReadsOneResult : Prop :=
  ∀ (s : State) (idx rsv data : Byte),
    (idx.toNat < 4 →
      Succeeds (exec (.rdr idx) s) ([s.temp, s.pres, s.tsc, s.psc].getD idx.toNat 0#64) { s with lastErr := 0#4 } ∧
      Succeeds (exec (.rdr idx) State.reset) 0#64 State.reset ∧
      decode (commandWord 0x07#8 idx 0#8 0#8) = .ok (.rdr idx)) ∧
    (rsv ≠ 0#8 ∨ data ≠ 0#8 → Fails (step (s.present (commandWord 0x07#8 idx rsv data))) 1#4 s) ∧
    (4 ≤ idx.toNat → Fails (step (s.present (commandWord 0x07#8 idx 0#8 0#8))) 2#4 s)

/-- 42_control.md R172: `STATUS` zero-extended and no register changed at all; an illegal `RDS` word is recorded; 0 right after
reset. -/
def Obligations.RdsReadsStatus : Prop :=
  ∀ s : State,
    Succeeds (exec .rds s) ((status s).setWidth 64) s ∧
    Succeeds (exec .rds State.reset) 0#64 State.reset ∧
    decode 0x08000000#32 = .ok .rds ∧
    (∀ w, opField w = 0x08#8 → w ≠ 0x08000000#32 → Fails (step (s.present w)) 1#4 s)

/-- 10_state.md R32: the layout of `STATUS`, every one of its 32 bits. -/
def Obligations.StatusLayout : Prop :=
  ∀ s : State,
    (status s).getLsbD 0 = s.calValid ∧ (status s).getLsbD 1 = s.tscValid ∧ (status s).getLsbD 2 = s.prsValid ∧
    (∀ k : Fin 3, (status s).getLsbD (3 + k.val) = s.rbv[k]) ∧
    (∀ k : Fin 18, (status s).getLsbD (6 + k.val) = s.cbv[k]) ∧
    (status s).extractLsb' 24 4 = s.lastErr ∧ (status s).extractLsb' 28 4 = s.firstErr

/-- 42_control.md R176: the cleared valid bits, `BUS_ERROR` answered and recorded, every other register as before; a `CDEC`
after it in an uncalibrated block finds bytes missing. -/
def Obligations.BerrAbandonsWhatWasInProgress : Prop :=
  ∀ s : State,
    (∃ t, exec .berr s = .next t ∧ t.answer = some { resp := 8#4, dout := 0#64 } ∧
      t.registers = { s.registers with
        rbv := t.rbv
        cbv := t.cbv
        lastErr := 8#4
        firstErr := if s.firstErr = 0#4 then 8#4 else s.firstErr } ∧
      (∀ k : Fin 3, t.rbv[k] = false) ∧
      (∀ k : Fin 18, t.cbv[k] = if s.calValid = true then s.cbv[k] else false) ∧
      (s.calValid = false → Fails (exec .cdec t) 3#4 t)) ∧
    decode 0x09000000#32 = .ok .berr ∧
    (∀ w, opField w = 0x09#8 → w ≠ 0x09000000#32 → Fails (step (s.present w)) 1#4 s)

/-- 42_control.md R177: every register at its reset value, `OK`; the same registers as the `rst` event; an illegal `RST` word
resets nothing; `rst` and the legal `RST` word are the only ways to clear `CAL_VALID`, `TSC_VALID`, `PRS_VALID` and to change a
nonzero `FIRST_ERR`. -/
def Obligations.RstResetsLikeTheInput : Prop :=
  ∀ s : State,
    Succeeds (exec .rst s) 0#64 State.reset ∧
    (∀ rest t, s.stream = .rst :: rest → step s = .next t → t.registers = State.reset.registers) ∧
    decode 0x0A000000#32 = .ok .rst ∧
    (∀ w, opField w = 0x0A#8 → w ≠ 0x0A000000#32 → Fails (step (s.present w)) 1#4 s) ∧
    (∀ t, step s = .next t →
      ((s.calValid = true ∧ t.calValid = false) ∨ (s.tscValid = true ∧ t.tscValid = false) ∨
        (s.prsValid = true ∧ t.prsValid = false) ∨ (s.firstErr ≠ 0#4 ∧ t.firstErr ≠ s.firstErr)) →
      ∃ rest, s.stream = .rst :: rest ∨ s.stream = .command 0x0A000000#32 :: rest)

/-! ### The calibration decoder -/

/-- 40_decoder.md R101: the coefficients a successful `CDEC` leaves depend on the 18 bytes alone, whatever else two blocks
hold. -/
def Obligations.DecodingDependsOnBytesAlone : Prop :=
  ∀ s s' t t' : State, s.cb = s'.cb → exec .cdec s = .next t → exec .cdec s' = .next t' →
    t.answer = some { resp := 0#4, dout := 0#64 } → t'.answer = some { resp := 0#4, dout := 0#64 } → t.coef = t'.coef

/-- 00_scope.md R9 and 40_decoder.md R119: sign correction at every width, and its corners. -/
def Obligations.SignCorrectionAtEveryWidth : Prop :=
  ∀ w : Nat, 0 < w →
    (∀ u : Nat, u < 2 ^ w →
      twos u w = (if (BitVec.ofNat w u).msb then (u : Int) - 2 ^ w else (u : Int)) ∧
      twos u w = (BitVec.ofNat w u).toInt ∧ (coefficient w u).toInt = twos u w ∧
      -(2 ^ (w - 1) : Int) ≤ twos u w ∧ twos u w ≤ 2 ^ (w - 1) - 1) ∧
    twos (2 ^ (w - 1)) w = -(2 ^ (w - 1) : Int) ∧ twos (2 ^ (w - 1) - 1) w = 2 ^ (w - 1) - 1 ∧
    twos 0 w = 0 ∧ twos (2 ^ w - 1) w = -1

/-- 40_decoder.md R110 to R118: each coefficient's pattern as the concatenation of its source parts, its value the sign
correction of that pattern at its own width, and its range. -/
def Obligations.CoefficientFieldLayouts : Prop :=
  ∀ b : Vector Byte 18,
    (decodeCoeffs b).c0 = b[0] ++ b[1].extractLsb' 4 4 ∧
    (decodeCoeffs b).c1 = b[1].extractLsb' 0 4 ++ b[2] ∧
    (decodeCoeffs b).c00 = b[3] ++ b[4] ++ b[5].extractLsb' 4 4 ∧
    (decodeCoeffs b).c10 = b[5].extractLsb' 0 4 ++ b[6] ++ b[7] ∧
    (decodeCoeffs b).c01 = b[8] ++ b[9] ∧ (decodeCoeffs b).c11 = b[10] ++ b[11] ∧
    (decodeCoeffs b).c20 = b[12] ++ b[13] ∧ (decodeCoeffs b).c21 = b[14] ++ b[15] ∧
    (decodeCoeffs b).c30 = b[16] ++ b[17] ∧
    (decodeCoeffs b).c0.toInt = twos (b[0] ++ b[1].extractLsb' 4 4).toNat 12 ∧
    (decodeCoeffs b).c1.toInt = twos (b[1].extractLsb' 0 4 ++ b[2]).toNat 12 ∧
    (decodeCoeffs b).c00.toInt = twos (b[3] ++ b[4] ++ b[5].extractLsb' 4 4).toNat 20 ∧
    (decodeCoeffs b).c10.toInt = twos (b[5].extractLsb' 0 4 ++ b[6] ++ b[7]).toNat 20 ∧
    (decodeCoeffs b).c01.toInt = twos (b[8] ++ b[9]).toNat 16 ∧
    (decodeCoeffs b).c11.toInt = twos (b[10] ++ b[11]).toNat 16 ∧
    (decodeCoeffs b).c20.toInt = twos (b[12] ++ b[13]).toNat 16 ∧
    (decodeCoeffs b).c21.toInt = twos (b[14] ++ b[15]).toNat 16 ∧
    (decodeCoeffs b).c30.toInt = twos (b[16] ++ b[17]).toNat 16 ∧
    (decodeCoeffs b).InRange

/-- 40_decoder.md R122 and R120: `decode` is a bijection with the stated inverse, so every set of coefficients in range is
reached, and no other. -/
def Obligations.CoefficientBytesBijection : Prop :=
  (∀ c : Coeffs, decodeCoeffs (encodeCoeffs c) = c) ∧
  (∀ b : Vector Byte 18, encodeCoeffs (decodeCoeffs b) = b ∧ (decodeCoeffs b).InRange)

/-- Neither the order of the loads nor an earlier load of the same index matters to `CDEC` (40_decoder.md R102, 20_memory.md
R55): from every uncalibrated state, any list of `CLD` commands whose last load of each index `k` carries `bytes[k]`, and then
`CDEC`, leaves the block calibrated with `decode` of `bytes`. The stream is the model's own field (log entry 1). -/
def Obligations.LoadOrderDoesNotMatter : Prop :=
  ∀ (s : State) (bytes : Vector Byte 18) (loads : List (Fin 18 × Byte)) (rest : List HostEvent),
    s.calValid = false → (∀ k : Fin 18, loads.reverse.lookup k = some bytes[k]) →
    s.stream = loads.map (fun l => .command (encode (.cld (BitVec.ofNat 8 l.1.val) l.2)))
      ++ .command (encode .cdec) :: rest →
    ∃ t : State, Sys2Proof.core.run (loads.length + 1) s = .next t ∧
      t.answer = some { resp := 0#4, dout := 0#64 } ∧
      t.registers = { s.registers with
        cb := bytes
        cbv := Vector.replicate 18 true
        coef := decodeCoeffs bytes
        calValid := true
        lastErr := 0#4 } ∧
      t.stream = rest

/-! ### The converter -/

/-- 41_converter.md R132. -/
def Obligations.RawAssemblyIsBigEndian : Prop :=
  ∀ rb : Vector Byte 3,
    raw24 rb = twos (rb[0].toNat * 2 ^ 16 + rb[1].toNat * 2 ^ 8 + rb[2].toNat) 24 ∧
    raw24 rb = (rb[0] ++ rb[1] ++ rb[2]).toInt ∧ IsRaw (raw24 rb) ∧
    raw24 #v[0x08#8, 0x00#8, 0x00#8] = 524288 ∧ raw24 #v[0x7F#8, 0xFF#8, 0xFF#8] = 8388607 ∧
    raw24 #v[0x80#8, 0x00#8, 0x00#8] = -8388608 ∧ raw24 #v[0xFF#8, 0xFF#8, 0xFF#8] = -1

/-- 00_scope.md R10: `f64` is exact, and each operation gives the exact result rounded once to nearest, ties to even, wherever
that result is within the finite range. -/
def Obligations.Binary64OperationsRoundOnce : Prop :=
  (∀ n : Int, |n| < 2 ^ 53 → (F64.ofInt n).isFinite = true ∧ (F64.ofInt n).toRat = (n : Rat)) ∧
  (∀ a b : F64, a.isFinite = true → b.isFinite = true →
    (|a.toRat + b.toRat| ≤ maxFinite → RoundsTo (a.toRat + b.toRat) (fadd a b)) ∧
    (|a.toRat * b.toRat| ≤ maxFinite → RoundsTo (a.toRat * b.toRat) (fmul a b)) ∧
    (b.toRat ≠ 0 → |a.toRat / b.toRat| ≤ maxFinite → RoundsTo (a.toRat / b.toRat) (fdiv a b)))

/-- 41_converter.md R133: temperature scaling is one division and exact. -/
def Obligations.TemperatureScaleIsExact : Prop :=
  scaleT 524288 = 0x3FF0000000000000#64 ∧
  ∀ raw : Int, IsRaw raw → scaleT raw = fdiv (F64.ofInt raw) (F64.ofInt 524288) ∧
    (scaleT raw).isFinite = true ∧ (scaleT raw).toRat = (raw : Rat) / 2 ^ 19

/-- 41_converter.md R134: pressure scaling is one correctly rounded division, exact exactly for multiples of 3. -/
def Obligations.PressureScaleRoundsOnce : Prop :=
  scaleP 1572864 = 0x3FF0000000000000#64 ∧ scaleP (-8388608) = 0xC015555555555555#64 ∧
  ∀ raw : Int, IsRaw raw → scaleP raw = fdiv (F64.ofInt raw) (F64.ofInt 1572864) ∧
    RoundsTo ((raw : Rat) / 1572864) (scaleP raw) ∧ ((scaleP raw).toRat = (raw : Rat) / 1572864 ↔ 3 ∣ raw)

/-- 41_converter.md R136: the association of the thirteen operations; addition and multiplication commute. -/
def Obligations.PressureEvaluationOrder : Prop :=
  (∀ (c : Coeffs) (tsc psc : F64),
    polyP c tsc psc =
      fadd
        (fadd
          (fadd (F64.ofInt c.c00.toInt)
            (fmul psc (fadd (F64.ofInt c.c10.toInt)
              (fmul psc (fadd (F64.ofInt c.c20.toInt) (fmul psc (F64.ofInt c.c30.toInt)))))))
          (fmul tsc (F64.ofInt c.c01.toInt)))
        (fmul (fmul tsc psc) (fadd (F64.ofInt c.c11.toInt) (fmul psc (F64.ofInt c.c21.toInt))))) ∧
  (∀ x y : F64, x.isFinite = true → y.isFinite = true → fadd x y = fadd y x ∧ fmul x y = fmul y x) ∧
  (∀ (c : Coeffs), c = ⟨1, 1, 1, 1, 1, 1, 1, 1, 1⟩ →
    (pressureTree c 0x3FF0000000000000#64 0x3FF0000000000000#64).values =
      [1, 2, 2, 3, 3, 4, 1, 5, 1, 1, 2, 2, 7].map F64.ofInt)

/-- 41_converter.md R161: the temperature is the real value of the formula, for every coefficient pair and raw value; its
range, both ends reached. -/
def Obligations.TemperatureIsExact : Prop :=
  (∀ (c0 c1 : BitVec 12) (raw : Int), IsRaw raw →
    (polyT c0.toInt c1.toInt (scaleT raw)).isFinite = true ∧
    (polyT c0.toInt c1.toInt (scaleT raw)).toRat = (c0.toInt : Rat) / 2 + (c1.toInt : Rat) * raw / 2 ^ 19 ∧
    -(33791 + 255 / 256 : Rat) ≤ (polyT c0.toInt c1.toInt (scaleT raw)).toRat ∧
    (polyT c0.toInt c1.toInt (scaleT raw)).toRat ≤ (33791 + 1 / 2 : Rat)) ∧
  (∃ (c0 c1 : BitVec 12) (raw : Int), IsRaw raw ∧
    (polyT c0.toInt c1.toInt (scaleT raw)).toRat = -(33791 + 255 / 256 : Rat)) ∧
  (∃ (c0 c1 : BitVec 12) (raw : Int), IsRaw raw ∧
    (polyT c0.toInt c1.toInt (scaleT raw)).toRat = (33791 + 1 / 2 : Rat))

/-- The upper bounds of 41_converter.md R160: no operation of a conversion gives an infinity or a NaN, every intermediate and
result is below 2^25 in magnitude, and the scaled values are in their ranges. -/
def Obligations.NoOverflowInConversions : Prop :=
  ∀ (c : Coeffs) (rawT raw : Int), IsRaw rawT → IsRaw raw →
    (-16 ≤ (scaleT rawT).toRat ∧ (scaleT rawT).toRat ≤ 16 - 1 / 2 ^ 19) ∧
    (F64.toRat 0xC015555555555555#64 ≤ (scaleP raw).toRat ∧ (scaleP raw).toRat ≤ F64.toRat 0x401555552AAAAAAB#64) ∧
    ∀ x ∈ [scaleT rawT, scaleP raw, polyT c.c0.toInt c.c1.toInt (scaleT rawT)]
        ++ (pressureTree c (scaleT rawT) (scaleP raw)).values,
      x.isFinite = true ∧ |x.toRat| < 2 ^ 25

/-- The lower bound of 41_converter.md R160: every nonzero intermediate and result is at least 2^-400 in magnitude, so none is
subnormal. -/
def Obligations.NoUnderflowInConversions : Prop :=
  ∀ (c : Coeffs) (rawT raw : Int), IsRaw rawT → IsRaw raw →
    ∀ x ∈ [scaleT rawT, scaleP raw, polyT c.c0.toInt c.c1.toInt (scaleT rawT)]
        ++ (pressureTree c (scaleT rawT) (scaleP raw)).values,
      x.toRat ≠ 0 → 1 / 2 ^ 400 ≤ |x.toRat|

/-- 41_converter.md R162: no -0.0 in a result register; +0.0 exactly for raw 0; the sums of the final chain are never -0.0,
while an intermediate can be. -/
def Obligations.NoNegativeZeroResult : Prop :=
  (∀ raw : Int, IsRaw raw →
    (scaleT raw = 0#64 ↔ raw = 0) ∧ (scaleP raw = 0#64 ↔ raw = 0) ∧
    scaleT raw ≠ 0x8000000000000000#64 ∧ scaleP raw ≠ 0x8000000000000000#64) ∧
  (∀ (c : Coeffs) (rawT raw : Int), IsRaw rawT → IsRaw raw →
    polyT c.c0.toInt c.c1.toInt (scaleT rawT) ≠ 0x8000000000000000#64 ∧
    (pressureTree c (scaleT rawT) (scaleP raw)).s1 ≠ 0x8000000000000000#64 ∧
    (pressureTree c (scaleT rawT) (scaleP raw)).s2 ≠ 0x8000000000000000#64 ∧
    polyP c (scaleT rawT) (scaleP raw) ≠ 0x8000000000000000#64) ∧
  (∀ s : State, BlockInv s → ∀ x ∈ [s.tsc, s.psc, s.temp, s.pres], x ≠ 0x8000000000000000#64) ∧
  (∀ tsc : F64, (pressureTree ⟨-1, -1, -1, -1, -1, -1, -1, -1, -1⟩ tsc 0xBFF0000000000000#64).t3
    = 0x8000000000000000#64)

/-! ### Whole-machine rules -/

/-- 42_control.md R173: two reads with only reads, `RDS`, `NOP`, `CLD`, `MLD` or failing commands between them give the same
answer, from every state and however many such commands there are. -/
def Obligations.ReadsRepeat : Prop :=
  ∀ s t : State, Relation.ReflTransGen QuietStep s t → ∀ idx : Byte, ∀ i ∈ [Instr.rdc idx, Instr.rdr idx],
    ∃ a b, exec i s = .next a ∧ exec i t = .next b ∧ a.answer = b.answer

/-- 70_reset_and_hazards.md R240: from every uncalibrated state the host's construction leaves the block calibrated with
`decode` of the 18 bytes read when every transaction succeeds; when one fails it leaves the block uncalibrated with no byte
valid and the coefficients untouched, so every conversion and `CDEC` answers an error. How the host acts is log entry 11
(DEDUCED: the first failure ends the sequence with `BERR`). -/
def Obligations.ConstructionIsAtomic : Prop :=
  ∀ s : State, s.calValid = false →
    (∀ (x y z : Byte) (bytes : Vector Byte 18),
      s.stream = hostEvents construct (([x, y, z] ++ bytes.toList).map .done) →
      ∃ t : State, Sys2Proof.core.run s.stream.length s = .next t ∧ t.calValid = true ∧ t.coef = decodeCoeffs bytes ∧
        t.answer = some { resp := 0#4, dout := 0#64 }) ∧
    (∀ (good : List Byte) (more : List BusAnswer), good.length < 21 →
      s.stream = hostEvents construct (good.map .done ++ .failed :: more) →
      ∃ t : State, Sys2Proof.core.run s.stream.length s = .next t ∧ t.calValid = false ∧ t.coef = s.coef ∧
        (∀ k : Fin 18, t.cbv[k] = false) ∧ t.answer = some { resp := 8#4, dout := 0#64 } ∧
        Fails (exec .cdec t) 3#4 t ∧ Fails (exec .cvt t) 5#4 t ∧ Fails (exec .cvp t) 5#4 t)

/-- 70_reset_and_hazards.md R241 and R242: a host's measurement, from every calibrated state (for pressure, one with a valid
`TSC`), ends with the results of the three bytes read when every transaction succeeds, and with all four results unchanged
when one fails. How the host acts is log entry 11 (DEDUCED: the first failure ends the sequence with `BERR`). -/
def Obligations.MeasurementSequences : Prop :=
  ∀ s : State, s.calValid = true →
    (∀ x b0 b1 b2 : Byte, s.stream = hostEvents measureTemperature [.done x, .done b0, .done b1, .done b2] →
      ∃ t : State, Sys2Proof.core.run s.stream.length s = .next t ∧
        t.tsc = scaleT (raw24 #v[b0, b1, b2]) ∧
        t.temp = polyT s.coef.c0.toInt s.coef.c1.toInt (scaleT (raw24 #v[b0, b1, b2])) ∧
        t.tscValid = true ∧ t.psc = s.psc ∧ t.pres = s.pres ∧ t.answer = some { resp := 0#4, dout := 0#64 }) ∧
    (∀ x b0 b1 b2 : Byte, s.tscValid = true →
      s.stream = hostEvents measurePressure [.done x, .done b0, .done b1, .done b2] →
      ∃ t : State, Sys2Proof.core.run s.stream.length s = .next t ∧
        t.psc = scaleP (raw24 #v[b0, b1, b2]) ∧
        t.pres = polyP s.coef s.tsc (scaleP (raw24 #v[b0, b1, b2])) ∧
        t.prsValid = true ∧ t.tsc = s.tsc ∧ t.temp = s.temp ∧ t.answer = some { resp := 0#4, dout := 0#64 }) ∧
    (∀ (good : List Byte) (more : List BusAnswer) (m : List HostAction), good.length < 4 →
      m ∈ [measureTemperature, measurePressure] → s.stream = hostEvents m (good.map .done ++ .failed :: more) →
      ∃ t : State, Sys2Proof.core.run s.stream.length s = .next t ∧
        t.tsc = s.tsc ∧ t.temp = s.temp ∧ t.psc = s.psc ∧ t.pres = s.pres ∧ (∀ k : Fin 3, t.rbv[k] = false) ∧
        t.answer = some { resp := 8#4, dout := 0#64 })

/-- The invariant holds at reset. -/
def Obligations.InvariantAtReset : Prop := BlockInv State.reset

/-- Every step keeps the invariant, from every state that has it. -/
def Obligations.EveryStepKeepsTheInvariant : Prop :=
  ∀ s t : State, BlockInv s → step s = .next t → BlockInv t
end

