-- ==== Sys2Proof/Laws/State.lean ====
section
/-! SUPPORT. One lemma per field for every whole-state operation, so that no proof unfolds a record update. -/

namespace Sys2Proof.Machine

variable (s : State)


/-! ### `record` -/

@[simp] theorem record_cb (resp : RespCode) : (record resp s).cb = s.cb := rfl
@[simp] theorem record_cbv (resp : RespCode) : (record resp s).cbv = s.cbv := rfl
@[simp] theorem record_coef (resp : RespCode) : (record resp s).coef = s.coef := rfl
@[simp] theorem record_calValid (resp : RespCode) : (record resp s).calValid = s.calValid := rfl
@[simp] theorem record_rb (resp : RespCode) : (record resp s).rb = s.rb := rfl
@[simp] theorem record_rbv (resp : RespCode) : (record resp s).rbv = s.rbv := rfl
@[simp] theorem record_tsc (resp : RespCode) : (record resp s).tsc = s.tsc := rfl
@[simp] theorem record_tscValid (resp : RespCode) : (record resp s).tscValid = s.tscValid := rfl
@[simp] theorem record_psc (resp : RespCode) : (record resp s).psc = s.psc := rfl
@[simp] theorem record_temp (resp : RespCode) : (record resp s).temp = s.temp := rfl
@[simp] theorem record_pres (resp : RespCode) : (record resp s).pres = s.pres := rfl
@[simp] theorem record_prsValid (resp : RespCode) : (record resp s).prsValid = s.prsValid := rfl
@[simp] theorem record_lastErr (resp : RespCode) : (record resp s).lastErr = resp := rfl
@[simp] theorem record_firstErr (resp : RespCode) : (record resp s).firstErr = if resp ≠ 0#4 ∧ s.firstErr = 0#4 then resp else s.firstErr := rfl
@[simp] theorem record_answer (resp : RespCode) : (record resp s).answer = s.answer := rfl
@[simp] theorem record_stream (resp : RespCode) : (record resp s).stream = s.stream := rfl

/-! ### `reply` -/

@[simp] theorem reply_cb (resp : RespCode) (dout : BitVec 64) : (reply resp dout s).cb = s.cb := rfl
@[simp] theorem reply_cbv (resp : RespCode) (dout : BitVec 64) : (reply resp dout s).cbv = s.cbv := rfl
@[simp] theorem reply_coef (resp : RespCode) (dout : BitVec 64) : (reply resp dout s).coef = s.coef := rfl
@[simp] theorem reply_calValid (resp : RespCode) (dout : BitVec 64) : (reply resp dout s).calValid = s.calValid := rfl
@[simp] theorem reply_rb (resp : RespCode) (dout : BitVec 64) : (reply resp dout s).rb = s.rb := rfl
@[simp] theorem reply_rbv (resp : RespCode) (dout : BitVec 64) : (reply resp dout s).rbv = s.rbv := rfl
@[simp] theorem reply_tsc (resp : RespCode) (dout : BitVec 64) : (reply resp dout s).tsc = s.tsc := rfl
@[simp] theorem reply_tscValid (resp : RespCode) (dout : BitVec 64) : (reply resp dout s).tscValid = s.tscValid := rfl
@[simp] theorem reply_psc (resp : RespCode) (dout : BitVec 64) : (reply resp dout s).psc = s.psc := rfl
@[simp] theorem reply_temp (resp : RespCode) (dout : BitVec 64) : (reply resp dout s).temp = s.temp := rfl
@[simp] theorem reply_pres (resp : RespCode) (dout : BitVec 64) : (reply resp dout s).pres = s.pres := rfl
@[simp] theorem reply_prsValid (resp : RespCode) (dout : BitVec 64) : (reply resp dout s).prsValid = s.prsValid := rfl
@[simp] theorem reply_lastErr (resp : RespCode) (dout : BitVec 64) : (reply resp dout s).lastErr = s.lastErr := rfl
@[simp] theorem reply_firstErr (resp : RespCode) (dout : BitVec 64) : (reply resp dout s).firstErr = s.firstErr := rfl
@[simp] theorem reply_answer (resp : RespCode) (dout : BitVec 64) : (reply resp dout s).answer = some { resp := resp, dout := dout } := rfl
@[simp] theorem reply_stream (resp : RespCode) (dout : BitVec 64) : (reply resp dout s).stream = s.stream := rfl

/-! ### `resetRegisters` -/

@[simp] theorem resetRegisters_cb : (resetRegisters s).cb = State.reset.cb := rfl
@[simp] theorem resetRegisters_cbv : (resetRegisters s).cbv = State.reset.cbv := rfl
@[simp] theorem resetRegisters_coef : (resetRegisters s).coef = State.reset.coef := rfl
@[simp] theorem resetRegisters_calValid : (resetRegisters s).calValid = State.reset.calValid := rfl
@[simp] theorem resetRegisters_rb : (resetRegisters s).rb = State.reset.rb := rfl
@[simp] theorem resetRegisters_rbv : (resetRegisters s).rbv = State.reset.rbv := rfl
@[simp] theorem resetRegisters_tsc : (resetRegisters s).tsc = State.reset.tsc := rfl
@[simp] theorem resetRegisters_tscValid : (resetRegisters s).tscValid = State.reset.tscValid := rfl
@[simp] theorem resetRegisters_psc : (resetRegisters s).psc = State.reset.psc := rfl
@[simp] theorem resetRegisters_temp : (resetRegisters s).temp = State.reset.temp := rfl
@[simp] theorem resetRegisters_pres : (resetRegisters s).pres = State.reset.pres := rfl
@[simp] theorem resetRegisters_prsValid : (resetRegisters s).prsValid = State.reset.prsValid := rfl
@[simp] theorem resetRegisters_lastErr : (resetRegisters s).lastErr = State.reset.lastErr := rfl
@[simp] theorem resetRegisters_firstErr : (resetRegisters s).firstErr = State.reset.firstErr := rfl
@[simp] theorem resetRegisters_answer : (resetRegisters s).answer = s.answer := rfl
@[simp] theorem resetRegisters_stream : (resetRegisters s).stream = s.stream := rfl

/-! ### `State.present` -/

@[simp] theorem present_cb (w : CmdWord) : (s.present w).cb = s.cb := rfl
@[simp] theorem present_cbv (w : CmdWord) : (s.present w).cbv = s.cbv := rfl
@[simp] theorem present_coef (w : CmdWord) : (s.present w).coef = s.coef := rfl
@[simp] theorem present_calValid (w : CmdWord) : (s.present w).calValid = s.calValid := rfl
@[simp] theorem present_rb (w : CmdWord) : (s.present w).rb = s.rb := rfl
@[simp] theorem present_rbv (w : CmdWord) : (s.present w).rbv = s.rbv := rfl
@[simp] theorem present_tsc (w : CmdWord) : (s.present w).tsc = s.tsc := rfl
@[simp] theorem present_tscValid (w : CmdWord) : (s.present w).tscValid = s.tscValid := rfl
@[simp] theorem present_psc (w : CmdWord) : (s.present w).psc = s.psc := rfl
@[simp] theorem present_temp (w : CmdWord) : (s.present w).temp = s.temp := rfl
@[simp] theorem present_pres (w : CmdWord) : (s.present w).pres = s.pres := rfl
@[simp] theorem present_prsValid (w : CmdWord) : (s.present w).prsValid = s.prsValid := rfl
@[simp] theorem present_lastErr (w : CmdWord) : (s.present w).lastErr = s.lastErr := rfl
@[simp] theorem present_firstErr (w : CmdWord) : (s.present w).firstErr = s.firstErr := rfl
@[simp] theorem present_answer (w : CmdWord) : (s.present w).answer = s.answer := rfl
@[simp] theorem present_stream (w : CmdWord) : (s.present w).stream = .command w :: s.stream := rfl

/-! ### `State.registers` -/

@[simp] theorem registers_cb : (s.registers).cb = s.cb := rfl
@[simp] theorem registers_cbv : (s.registers).cbv = s.cbv := rfl
@[simp] theorem registers_coef : (s.registers).coef = s.coef := rfl
@[simp] theorem registers_calValid : (s.registers).calValid = s.calValid := rfl
@[simp] theorem registers_rb : (s.registers).rb = s.rb := rfl
@[simp] theorem registers_rbv : (s.registers).rbv = s.rbv := rfl
@[simp] theorem registers_tsc : (s.registers).tsc = s.tsc := rfl
@[simp] theorem registers_tscValid : (s.registers).tscValid = s.tscValid := rfl
@[simp] theorem registers_psc : (s.registers).psc = s.psc := rfl
@[simp] theorem registers_temp : (s.registers).temp = s.temp := rfl
@[simp] theorem registers_pres : (s.registers).pres = s.pres := rfl
@[simp] theorem registers_prsValid : (s.registers).prsValid = s.prsValid := rfl
@[simp] theorem registers_lastErr : (s.registers).lastErr = s.lastErr := rfl
@[simp] theorem registers_firstErr : (s.registers).firstErr = s.firstErr := rfl
@[simp] theorem registers_answer : (s.registers).answer = none := rfl
@[simp] theorem registers_stream : (s.registers).stream = [] := rfl

/-- Two states have the same registers when they agree on every register of the block. -/
theorem registers_ext (s t : State) (h₁ : t.cb = s.cb) (h₂ : t.cbv = s.cbv) (h₃ : t.coef = s.coef)
    (h₄ : t.calValid = s.calValid) (h₅ : t.rb = s.rb) (h₆ : t.rbv = s.rbv) (h₇ : t.tsc = s.tsc)
    (h₈ : t.tscValid = s.tscValid) (h₉ : t.psc = s.psc) (h₁₀ : t.temp = s.temp) (h₁₁ : t.pres = s.pres)
    (h₁₂ : t.prsValid = s.prsValid) (h₁₃ : t.lastErr = s.lastErr) (h₁₄ : t.firstErr = s.firstErr) :
    t.registers = s.registers := by
  cases s
  cases t
  simp_all [State.registers]

end Sys2Proof.Machine
end

