-- ==== Sys2Proof/Laws/Ops.lean ====
section
/-! SUPPORT. What each shared operation does, once, and the step in terms of them. -/

namespace Sys2Proof.Machine

/-- Raising an error is a failure with its code. -/
theorem raise_fails (e : ErrorCode) (s : State) : Fails (raise e s) e.code s := by
  refine ⟨_, rfl, rfl, ?_⟩
  cases e <;> simp [State.registers, record, reply, ErrorCode.code]

/-- Succeeding records `OK`, leaves `FIRST_ERR` and answers with the data result. -/
theorem succeed_succeeds (dout : BitVec 64) (s : State) : Succeeds (succeed dout s) dout { s with lastErr := 0#4 } :=
  ⟨_, rfl, rfl, rfl⟩

/-- Succeeding unrecorded leaves every register. -/
theorem succeedUnrecorded_succeeds (dout : BitVec 64) (s : State) : Succeeds (succeedUnrecorded dout s) dout s :=
  ⟨_, rfl, rfl, rfl⟩

/-- A raise whose next state is known. -/
theorem raise_next {e : ErrorCode} {s t : State} (h : raise e s = .next t) : t = reply e.code 0#64 (record e.code s) := by
  cases h
  rfl

/-- A success whose next state is known. -/
theorem succeed_next {dout : BitVec 64} {s t : State} (h : succeed dout s = .next t) :
    t = reply 0#4 dout (record 0#4 s) := by
  cases h
  rfl

/-- An unrecorded success whose next state is known. -/
theorem succeedUnrecorded_next {dout : BitVec 64} {s t : State} (h : succeedUnrecorded dout s = .next t) :
    t = reply 0#4 dout s := by
  cases h
  rfl

/-- A reset event whose next state is known. -/
theorem takeReset_next {s t : State} (h : takeReset s = .next t) :
    t = { State.reset with answer := none, stream := s.stream } := by
  cases h
  rfl

/-- Everything `CLD` can do. -/
theorem execCld_cases (idx data : Byte) (s : State) :
    (∃ h : idx.toNat < 18, execCld idx data s =
      succeed 0#64 { s with cb := s.cb.set idx.toNat data h, cbv := s.cbv.set idx.toNat true h }) ∨
    (18 ≤ idx.toNat ∧ execCld idx data s = raise .badIndex s) := by
  by_cases h : idx.toNat < 18
  · exact .inl ⟨h, by simp [execCld, h]⟩
  · exact .inr ⟨by omega, by simp [execCld, h]⟩

/-- Everything `MLD` can do. -/
theorem execMld_cases (idx data : Byte) (s : State) :
    (∃ h : idx.toNat < 3, execMld idx data s =
      succeed 0#64 { s with rb := s.rb.set idx.toNat data h, rbv := s.rbv.set idx.toNat true h }) ∨
    (3 ≤ idx.toNat ∧ execMld idx data s = raise .badIndex s) := by
  by_cases h : idx.toNat < 3
  · exact .inl ⟨h, by simp [execMld, h]⟩
  · exact .inr ⟨by omega, by simp [execMld, h]⟩

/-- Everything `CDEC` can do. -/
theorem execCdec_cases (s : State) :
    (s.calValid = true ∧ execCdec s = raise .calLocked s) ∨
    (s.calValid = false ∧ coefComplete s = false ∧ execCdec s = raise .coefIncomplete s) ∨
    (s.calValid = false ∧ coefComplete s = true ∧
      execCdec s = succeed 0#64 { s with coef := decodeCoeffs s.cb, calValid := true }) := by
  unfold execCdec
  cases s.calValid <;> cases coefComplete s <;> simp

/-- Everything `CVT` can do. -/
theorem execCvt_cases (s : State) :
    (s.calValid = false ∧ execCvt s = raise .notCalibrated s) ∨
    (s.calValid = true ∧ rawComplete s = false ∧ execCvt s = raise .rawIncomplete s) ∨
    (s.calValid = true ∧ rawComplete s = true ∧
      execCvt s = succeed 0#64
        { s with
          tsc := scaleT (raw24 s.rb)
          temp := polyT s.coef.c0.toInt s.coef.c1.toInt (scaleT (raw24 s.rb))
          tscValid := true
          rbv := noRaw }) := by
  unfold execCvt
  cases s.calValid <;> cases rawComplete s <;> simp

/-- Everything `CVP` can do. -/
theorem execCvp_cases (s : State) :
    (s.calValid = false ∧ execCvp s = raise .notCalibrated s) ∨
    (s.calValid = true ∧ s.tscValid = false ∧ execCvp s = raise .noTsc s) ∨
    (s.calValid = true ∧ s.tscValid = true ∧ rawComplete s = false ∧ execCvp s = raise .rawIncomplete s) ∨
    (s.calValid = true ∧ s.tscValid = true ∧ rawComplete s = true ∧
      execCvp s = succeed 0#64
        { s with
          psc := scaleP (raw24 s.rb)
          pres := polyP s.coef s.tsc (scaleP (raw24 s.rb))
          prsValid := true
          rbv := noRaw }) := by
  unfold execCvp
  cases s.calValid <;> cases s.tscValid <;> cases rawComplete s <;> simp

/-- Everything `RDC` can do. -/
theorem execRdc_cases (idx : Byte) (s : State) :
    (coefAt s.coef idx.toNat = none ∧ execRdc idx s = raise .badIndex s) ∨
    (∃ v, coefAt s.coef idx.toNat = some v ∧ s.calValid = false ∧ execRdc idx s = raise .notCalibrated s) ∨
    (∃ v, coefAt s.coef idx.toNat = some v ∧ s.calValid = true ∧ execRdc idx s = succeed (sext64 v) s) := by
  unfold execRdc
  cases coefAt s.coef idx.toNat <;> cases s.calValid <;> simp

/-- Everything `RDR` can do. -/
theorem execRdr_cases (idx : Byte) (s : State) :
    (resultAt s idx.toNat = none ∧ execRdr idx s = raise .badIndex s) ∨
    (∃ v, resultAt s idx.toNat = some v ∧ execRdr idx s = succeed v s) := by
  unfold execRdr
  cases resultAt s idx.toNat <;> simp

/-- A coefficient is selected exactly by an index below 9. -/
theorem coefAt_isSome (c : Coeffs) (n : Nat) : (coefAt c n).isSome = decide (n < 9) := by
  unfold coefAt
  split <;> simp_all
  omega

/-- A result register is selected exactly by an index below 4. -/
theorem resultAt_isSome (s : State) (n : Nat) : (resultAt s n).isSome = decide (n < 4) := by
  unfold resultAt
  split <;> simp_all
  omega

/-- The valid bits are all 1 exactly when each is. -/
theorem allSet_toList {n : Nat} (v : Vector Bool n) : allSet v.toList = true ↔ ∀ k : Fin n, v[k] = true := by
  simp only [allSet, List.all_eq_true]
  constructor
  · intro h k
    exact h _ (by simp)
  · intro h b hb
    obtain ⟨i, hi, rfl⟩ := List.getElem_of_mem hb
    exact h ⟨i, by simpa using hi⟩

/-- A step with a word next performs it. -/
theorem step_command {s : State} {w : CmdWord} {rest : List HostEvent} (h : s.stream = .command w :: rest) :
    step s = perform w { s with stream := rest } := by
  simp [step, nextEvent, h, takeEvent]

/-- A step with `rst` next resets. -/
theorem step_rst {s : State} {rest : List HostEvent} (h : s.stream = .rst :: rest) :
    step s = takeReset { s with stream := rest } := by
  simp [step, nextEvent, h, takeEvent]

/-- A run of one more step goes on from that step's next state, for any machine. -/
theorem core_run_succ (M : Host.Core) {s t : M.State} (h : M.step s = .next t) (n : Nat) :
    M.run (n + 1) s = M.run n t := by
  simp only [Host.Core.run, h]

/-- A run of one more step goes on from that step's next state. -/
theorem run_succ {s t : State} (h : step s = .next t) (n : Nat) :
    Sys2Proof.core.run (n + 1) s = Sys2Proof.core.run n t :=
  core_run_succ Sys2Proof.core h n

/-- A presented word is performed next, in the state it was presented to. -/
theorem step_present (w : CmdWord) (s : State) : step (s.present w) = perform w s := rfl

end Sys2Proof.Machine
end

