-- ==== Sys2Proof/Laws/Words.lean ====
section
/-! SUPPORT. The fields of a command word and the whole word determine each other (30_encoding.md R71). -/

namespace Sys2Proof

variable (op idx rsv data : Byte)

@[simp] theorem opField_commandWord : opField (commandWord op idx rsv data) = op := by
  apply BitVec.eq_of_getLsbD_eq
  intro i hi
  simp only [opField, commandWord, BitVec.getLsbD_extractLsb', BitVec.getLsbD_append, hi, decide_true, Bool.true_and]
  split <;> first | omega | (split <;> first | omega | (split <;> first | omega | (congr 1; omega)))

@[simp] theorem idxField_commandWord : idxField (commandWord op idx rsv data) = idx := by
  apply BitVec.eq_of_getLsbD_eq
  intro i hi
  simp only [idxField, commandWord, BitVec.getLsbD_extractLsb', BitVec.getLsbD_append, hi, decide_true, Bool.true_and]
  split <;> first | omega | (split <;> first | omega | (split <;> first | omega | (congr 1; omega)))

@[simp] theorem rsvField_commandWord : rsvField (commandWord op idx rsv data) = rsv := by
  apply BitVec.eq_of_getLsbD_eq
  intro i hi
  simp only [rsvField, commandWord, BitVec.getLsbD_extractLsb', BitVec.getLsbD_append, hi, decide_true, Bool.true_and]
  split <;> first | omega | (split <;> first | omega | (congr 1; omega))

@[simp] theorem dataField_commandWord : dataField (commandWord op idx rsv data) = data := by
  apply BitVec.eq_of_getLsbD_eq
  intro i hi
  simp only [dataField, commandWord, BitVec.getLsbD_extractLsb', BitVec.getLsbD_append, hi, decide_true, Bool.true_and]
  split <;> first | omega | (congr 1; omega)

/-- A word is its four fields. -/
theorem commandWord_fields (w : CmdWord) : commandWord (opField w) (idxField w) (rsvField w) (dataField w) = w := by
  apply BitVec.eq_of_getLsbD_eq
  intro i hi
  simp only [opField, idxField, rsvField, dataField, commandWord, BitVec.getLsbD_extractLsb', BitVec.getLsbD_append]
  split
  · simp_all
  · split
    · have : decide (i - 8 < 8) = true := by simpa using ‹_›
      simp only [this, Bool.true_and]
      congr 1
      omega
    · split
      · have : decide (i - 8 - 8 < 8) = true := by simpa using ‹_›
        simp only [this, Bool.true_and]
        congr 1
        omega
      · have : decide (i - 8 - 8 - 8 < 8) = true := by
          simp only [decide_eq_true_eq]
          omega
        simp only [this, Bool.true_and]
        congr 1
        omega

/-- Masking a word masks its fields. -/
theorem commandWord_and (op' idx' rsv' data' : Byte) :
    commandWord op idx rsv data &&& commandWord op' idx' rsv' data' =
      commandWord (op &&& op') (idx &&& idx') (rsv &&& rsv') (data &&& data') := by
  apply BitVec.eq_of_getLsbD_eq
  intro i _
  simp only [commandWord, BitVec.getLsbD_and, BitVec.getLsbD_append]
  split <;> first | rfl | (split <;> first | rfl | (split <;> rfl))

end Sys2Proof
end

