-- ==== Sys2Proof/Laws/PerInstr.lean ====
section
/-! SUPPORT. A statement about every command as syntax: its encoded word lies in its row of the opcode map (30_encoding.md
R74). -/

namespace Sys2Proof.Laws.EncodedRow

/-- The word of the command is inside its own row's match and mask, and its fields are the row's opcode and zero. -/
def Statement (i : Instr) : Prop :=
  i.opcode.matchesWord (encode i) = true ∧ opField (encode i) = i.opcode.byte ∧ rsvField (encode i) = 0#8

/-- A form-ID word keeps its row's match under the mask, whatever its operands are. -/
theorem masked_id (op idx data : Byte) :
    commandWord op idx 0#8 data &&& 0xFF00FF00#32 = commandWord op 0#8 0#8 0#8 := by
  rw [show (0xFF00FF00#32 : CmdWord) = commandWord (BitVec.allOnes 8) 0#8 (BitVec.allOnes 8) 0#8 by decide, commandWord_and]
  simp only [BitVec.and_allOnes, BitVec.and_zero]

/-- A form-I word keeps its row's match under the mask, whatever its index is. -/
theorem masked_i (op idx : Byte) :
    commandWord op idx 0#8 0#8 &&& 0xFF00FFFF#32 = commandWord op 0#8 0#8 0#8 := by
  rw [show (0xFF00FFFF#32 : CmdWord) = commandWord (BitVec.allOnes 8) 0#8 (BitVec.allOnes 8) (BitVec.allOnes 8) by decide,
    commandWord_and]
  simp only [BitVec.and_allOnes, BitVec.and_zero]

theorem nop : Statement .nop := by unfold Statement; decide

theorem cld (idx data : Byte) : Statement (.cld idx data) := by
  refine ⟨?_, by simp [encode, Instr.opcode, Opcode.byte], by simp [encode]⟩
  simp only [Instr.opcode, Opcode.matchesWord, Opcode.rowMask, encode, masked_id]
  decide

theorem cdec : Statement .cdec := by unfold Statement; decide

theorem mld (idx data : Byte) : Statement (.mld idx data) := by
  refine ⟨?_, by simp [encode, Instr.opcode, Opcode.byte], by simp [encode]⟩
  simp only [Instr.opcode, Opcode.matchesWord, Opcode.rowMask, encode, masked_id]
  decide

theorem cvt : Statement .cvt := by unfold Statement; decide

theorem cvp : Statement .cvp := by unfold Statement; decide

theorem rdc (idx : Byte) : Statement (.rdc idx) := by
  refine ⟨?_, by simp [encode, Instr.opcode, Opcode.byte], by simp [encode]⟩
  simp only [Instr.opcode, Opcode.matchesWord, Opcode.rowMask, encode, masked_i]
  decide

theorem rdr (idx : Byte) : Statement (.rdr idx) := by
  refine ⟨?_, by simp [encode, Instr.opcode, Opcode.byte], by simp [encode]⟩
  simp only [Instr.opcode, Opcode.matchesWord, Opcode.rowMask, encode, masked_i]
  decide

theorem rds : Statement .rds := by unfold Statement; decide

theorem berr : Statement .berr := by unfold Statement; decide

theorem rst : Statement .rst := by unfold Statement; decide

end Sys2Proof.Laws.EncodedRow
end

