-- ==== Sys2Proof/Tests/Slice0.lean ====
section
/-! SUPPORT. Tests of one step each, with expected values from the spec's own tables and vectors (95_test_vectors.md), and for
every statement with hypotheses a named witness that meets them. -/

namespace Sys2Proof.Machine.Tests

/-! ### Helpers -/

/-- The next state, or the reset state where there is none. -/
def after (o : Host.Outcome State Fault Refusal) : State :=
  match o with
  | .next t => t
  | .fault _ => State.reset
  | .refused _ => State.reset

/-- What a word is answered in a state. -/
def answered (w : CmdWord) (s : State) : Option Response := (after (step (s.present w))).answer

/-- All 18 coefficient bytes loaded. -/
def loaded (bytes : Vector Byte 18) : State :=
  { State.reset with cb := bytes, cbv := Vector.replicate 18 true }

/-- The bytes loaded and decoded. -/
def calibrated (bytes : Vector Byte 18) : State :=
  { loaded bytes with coef := decodeCoeffs bytes, calValid := true }

/-- Three raw bytes loaded. -/
def withRaw (b0 b1 b2 : Byte) (s : State) : State :=
  { s with rb := #v[b0, b1, b2], rbv := Vector.replicate 3 true }

/-- A scaled temperature from an earlier `CVT`. -/
def withTsc (tsc : F64) (s : State) : State := { s with tsc := tsc, tscValid := true }

/-- V-D5. -/
def mixed : Vector Byte 18 :=
  #v[0x0C, 0x8E, 0xFC, 0x13, 0x88, 0x0F, 0x29, 0x28, 0xF5, 0x10, 0x04, 0xB0, 0xD8, 0xF0, 0x00, 0xC8, 0xFA, 0xEC]

/-- V-D4. -/
def mostPositive : Vector Byte 18 :=
  #v[0x7F, 0xF7, 0xFF, 0x7F, 0xFF, 0xF7, 0xFF, 0xFF, 0x7F, 0xFF, 0x7F, 0xFF, 0x7F, 0xFF, 0x7F, 0xFF, 0x7F, 0xFF]

/-- V-D8: the low nibble of a shared byte. -/
def lowNibbles : Vector Byte 18 :=
  #v[0x00, 0x0F, 0x00, 0x00, 0x00, 0x0F, 0x00, 0x00, 0x00, 0x00, 0x00, 0x00, 0x00, 0x00, 0x00, 0x00, 0x00, 0x00]

/-! ### Well-formedness -/

theorem test_wellFormed_refuses_cld_18 : (Instr.cld 18#8 0#8).wellFormed = false := by decide
theorem test_wellFormed_refuses_mld_3 : (Instr.mld 3#8 0#8).wellFormed = false := by decide
theorem test_wellFormed_refuses_rdc_9 : (Instr.rdc 9#8).wellFormed = false := by decide
theorem test_wellFormed_refuses_rdr_4 : (Instr.rdr 4#8).wellFormed = false := by decide

/-- The greatest legal index of each row (30_encoding.md R74). -/
theorem test_wellFormed_takes_limits :
    (Instr.cld 17#8 0xFF#8).wellFormed ∧ (Instr.mld 2#8 0xFF#8).wellFormed ∧ (Instr.rdc 8#8).wellFormed ∧
      (Instr.rdr 3#8).wellFormed := by decide

/-! ### Decoding: words written out from 30_encoding.md R71 and R74 -/

theorem test_decode_nop : decode 0b00000000_00000000_00000000_00000000#32 = .ok .nop := by decide
theorem test_decode_cld : decode 0b00000001_00000011_00000000_00010011#32 = .ok (.cld 3#8 0x13#8) := by decide
theorem test_decode_cdec : decode 0b00000010_00000000_00000000_00000000#32 = .ok .cdec := by decide
theorem test_decode_mld : decode 0b00000011_00000001_00000000_10100101#32 = .ok (.mld 1#8 0xA5#8) := by decide
theorem test_decode_cvt : decode 0b00000100_00000000_00000000_00000000#32 = .ok .cvt := by decide
theorem test_decode_cvp : decode 0b00000101_00000000_00000000_00000000#32 = .ok .cvp := by decide
theorem test_decode_rdc : decode 0b00000110_00000101_00000000_00000000#32 = .ok (.rdc 5#8) := by decide
theorem test_decode_rdr : decode 0b00000111_00000011_00000000_00000000#32 = .ok (.rdr 3#8) := by decide
theorem test_decode_rds : decode 0b00001000_00000000_00000000_00000000#32 = .ok .rds := by decide
theorem test_decode_berr : decode 0b00001001_00000000_00000000_00000000#32 = .ok .berr := by decide
theorem test_decode_rst : decode 0b00001010_00000000_00000000_00000000#32 = .ok .rst := by decide

/-- V-C2 to V-C7 and V-C13. -/
theorem test_decode_illegal :
    [0x0B000000#32, 0xFF000000#32, 0x00000100#32, 0x00010000#32, 0x06000001#32, 0x0A000001#32, 0x08000001#32].map decode
      = List.replicate 7 (.error .illegalCmd) := by decide

/-- V-C8 to V-C12. -/
theorem test_decode_badIndex :
    [0x01120000#32, 0x01FF00FF#32, 0x03030000#32, 0x06090000#32, 0x07040000#32].map decode
      = List.replicate 5 (.error .badIndex) := by decide

/-- The operand byte sits in bits 7:0 and the index in bits 23:16 of the table's numbering (30_encoding.md R71). -/
theorem test_decodeTableWord : decodeTableWord 32 0x011100EC = some (.cld 17#8 0xEC#8) := by decide

/-- A placed word is what the first step after reset runs (log entries 1 and 14). -/
theorem test_withFetchWord :
    (after (step (State.reset.withFetchWord 32 0x01010010))).cb[1] = 0x10#8 := by decide

/-! ### The commands, at most two tests each -/

/-- V-C31: `LAST_ERR` goes back to 0, `FIRST_ERR` keeps the code. -/
theorem test_nop :
    let t := after (exec .nop { State.reset with lastErr := 7#4, firstErr := 3#4 })
    t.lastErr = 0#4 ∧ t.firstErr = 3#4 := by decide

/-- The last byte and its neighbour. -/
theorem test_cld_last :
    let t := after (exec (.cld 17#8 0xEC#8) State.reset)
    t.cb[17] = 0xEC#8 ∧ t.cbv[17] = true ∧ t.cb[16] = 0#8 ∧ t.cbv[16] = false := by decide

/-- V-D12: a load after the decode is accepted and leaves the coefficients. -/
theorem test_cld_after_decode :
    let t := after (exec (.cld 0#8 0xFF#8) (calibrated mixed))
    t.cb[0] = 0xFF#8 ∧ t.coef.c0 = 200#12 := by decide +kernel

/-- V-D5: mixed signs, the examples of 40_decoder.md R110 to R118. -/
theorem test_cdec_mixed :
    let c := (after (exec .cdec (loaded mixed))).coef
    [c.c0.toInt, c.c1.toInt, c.c00.toInt, c.c10.toInt, c.c01.toInt, c.c11.toInt, c.c20.toInt, c.c21.toInt, c.c30.toInt]
      = [200, -260, 80000, -55000, -2800, 1200, -10000, 200, -1300] := by decide +kernel

/-- V-D8: the low nibble of a shared byte is the top of the second field and carries its sign. -/
theorem test_cdec_low_nibbles :
    let c := (after (exec .cdec (loaded lowNibbles))).coef
    [c.c0.toInt, c.c1.toInt, c.c00.toInt, c.c10.toInt] = [0, -256, 0, -65536] := by decide +kernel

/-- A second load of an index replaces the byte (41_converter.md R131). -/
theorem test_mld_replaces :
    let t := after (exec (.mld 2#8 0xF0#8) (withRaw 1 2 3 State.reset))
    t.rb = #v[1#8, 2#8, 0xF0#8] ∧ t.rbv[2] = true := by decide

/-- V-S5, `CVT`. -/
theorem test_cvt_mixed :
    let t := after (exec .cvt (withRaw 0xFB 0x12 0x34 (calibrated mixed)))
    t.tsc = 0xBFE3B73000000000#64 ∧ t.temp = 0x4070430660000000#64 ∧ t.rbv = noRaw := by decide +kernel

/-- V-S9: the bottom of the temperature range. -/
theorem test_cvt_bottom :
    (after (exec .cvt (withRaw 0x7F 0xFF 0xFF
      (calibrated #v[0x80, 0x08, 0, 0, 0, 0, 0, 0, 0, 0, 0, 0, 0, 0, 0, 0, 0, 0])))).temp
      = 0xC0E07FFFE0000000#64 := by decide +kernel

/-- V-S5, `CVP`: a rounded scaling and a rounded result. -/
theorem test_cvp_mixed :
    let t := after (exec .cvp (withRaw 0xF3 0xA5 0xC2 (withTsc 0xBFE3B73000000000#64 (calibrated mixed))))
    t.psc = 0xBFE07852AAAAAAAB#64 ∧ t.pres = 0x40FA58509EF44247#64 := by decide +kernel

/-- V-S7: the most positive coefficients and raws. -/
theorem test_cvp_most_positive :
    (after (exec .cvp (withRaw 0x7F 0xFF 0xFF (withTsc 0x402FFFFFC0000000#64 (calibrated mostPositive))))).pres
      = 0x417A2F3956B5298B#64 := by decide +kernel

/-- V-D5, `RDC 3`: a negative coefficient of 20 bits. -/
theorem test_rdc_negative :
    answered 0x06030000#32 (calibrated mixed) = some ⟨0#4, 0xFFFFFFFFFFFF2928#64⟩ := by decide +kernel

/-- V-C11: the index is checked before the calibration. -/
theorem test_rdc_index_first : answered 0x06090000#32 State.reset = some ⟨2#4, 0#64⟩ := by decide

/-- V-C28: `RDR 2` is `TSC` and `RDR 3` is `PSC`. -/
theorem test_rdr_scaled :
    let s := { State.reset with tsc := 0xBFE0000000000000#64, psc := 0x4000000000000000#64 }
    answered 0x07020000#32 s = some ⟨0#4, 0xBFE0000000000000#64⟩ ∧
      answered 0x07030000#32 s = some ⟨0#4, 0x4000000000000000#64⟩ := by decide

/-- P4: `STATUS = 0x40FFFFC3`. -/
theorem test_rds_status :
    answered 0x08000000#32 { calibrated mixed with tscValid := true, firstErr := 4#4 }
      = some ⟨0#4, 0x0000000040FFFFC3#64⟩ := by decide +kernel

/-- P2: `STATUS = 0x85000000`, and `LAST_ERR` stays for the next read. -/
theorem test_rds_keeps_lastErr :
    let s := { State.reset with lastErr := 5#4, firstErr := 8#4 }
    answered 0x08000000#32 s = some ⟨0#4, 0x0000000085000000#64⟩ ∧
      (after (exec .rds s)).lastErr = 5#4 := by decide

/-- V-C29: `BERR` while calibrated clears `RBV` alone. -/
theorem test_berr_calibrated :
    let t := after (exec .berr (withRaw 1 2 3 (calibrated mixed)))
    t.rbv = noRaw ∧ t.cbv[0] = true ∧ t.firstErr = 8#4 ∧ t.answer = some ⟨8#4, 0#64⟩ := by decide +kernel

/-- P2: `BERR` before calibration clears every `CBV`. -/
theorem test_berr_uncalibrated : (after (exec .berr (loaded mixed))).cbv = noCoef := by decide

/-- V-C30. -/
theorem test_rst :
    let t := after (exec .rst { calibrated mixed with firstErr := 3#4 })
    t.calValid = false ∧ t.firstErr = 0#4 ∧ t.cb[0] = 0#8 ∧ t.answer = some ⟨0#4, 0#64⟩ := by decide +kernel

/-! ### Around the block -/

/-- The decimal and hexadecimal numbers, the comment and the blanks of 30_encoding.md R84. -/
theorem test_assemble_line :
    assembleLine "CLD 3, 0x13 ; third byte".toList = some [.cld 3#8 0x13#8] ∧
      assembleLine "RDC 9".toList = none := by decide +kernel

/-- 30_encoding.md R85, with the words of P1. -/
theorem test_assemble_convt :
    (assembleLine "CONVT 0x08, 0, 0".toList).map (List.map encode)
      = some [0x03000008#32, 0x03010000#32, 0x03020000#32, 0x04000000#32] := by decide +kernel

/-- P2 (V-E8): the 10th coefficient read fails, so the host presents nine loads and `BERR`. -/
theorem test_construct_fails_at_10th_read :
    let events := hostEvents construct ((List.replicate 12 (.done 0x0C#8)) ++ [.failed])
    events.length = 10 ∧ events.getLast? = some (.command 0x09000000#32) ∧
      events.head? = some (.command 0x0100000C#32) := by decide

/-! ### Witnesses: concrete inputs that meet the hypotheses of each statement, clause by clause -/

theorem witness_DecodeInvertsEncode :
    (Instr.cld 17#8 255#8).wellFormed = true ∧ (Instr.mld 2#8 255#8).wellFormed = true ∧
      (Instr.rdc 8#8).wellFormed = true ∧ (Instr.rdr 3#8).wellFormed = true ∧ Instr.nop.wellFormed = true := by decide

theorem witness_DecodedWordIsTheEncodedWord : decode 0x011100FF#32 = .ok (.cld 17#8 255#8) := by decide

theorem witness_OpcodeRowsAreDisjoint : Opcode.cld.matchesWord 0x01FF00FF#32 = true := by decide

theorem witness_IllegalWordsMatchNoRow : ∀ p : Opcode, p.matchesWord 0x0B000000#32 = false := by
  intro p
  cases p <;> decide

theorem witness_DecodeChecksInOrder_rejections :
    10 < (opField 0x0B000000#32).toNat ∧ rsvField 0x00000100#32 ≠ 0#8 ∧
      ((opField 0x0A010000#32).toNat ∈ [0, 2, 4, 5, 8, 9, 10] ∧ idxField 0x0A010000#32 ≠ 0#8) ∧
      ((opField 0x07000001#32).toNat ∈ [6, 7] ∧ dataField 0x07000001#32 ≠ 0#8) ∧
      decode 0x01120000#32 = .error .badIndex := by decide

theorem witness_DecodeChecksInOrder_rows :
    (rsvField 0x011100FF#32 = 0#8 ∧ opField 0x011100FF#32 = 1#8 ∧ (idxField 0x011100FF#32).toNat = 17) ∧
      (rsvField 0x03020000#32 = 0#8 ∧ opField 0x03020000#32 = 3#8 ∧ (idxField 0x03020000#32).toNat = 2) ∧
      (rsvField 0x06080000#32 = 0#8 ∧ dataField 0x06080000#32 = 0#8 ∧ opField 0x06080000#32 = 6#8) ∧
      (rsvField 0x07030000#32 = 0#8 ∧ dataField 0x07030000#32 = 0#8 ∧ opField 0x07030000#32 = 7#8) ∧
      (rsvField 0x0A000000#32 = 0#8 ∧ idxField 0x0A000000#32 = 0#8 ∧ dataField 0x0A000000#32 = 0#8 ∧
        opField 0x0A000000#32 = 10#8) := by decide

theorem witness_StepRunsTheDecodedCommand :
    (State.reset.present 0x01110001#32).stream = .command 0x01110001#32 :: [] ∧
      decode 0x01110001#32 = .ok (.cld 17#8 1#8) := by decide

theorem witness_NoStepWhenHostStops : State.reset.stream = [] := by decide

theorem witness_BlockNeverHangs : (State.reset.present 0#32).stream = .command 0#32 :: [] := by decide

/-- A failing `CVT`, a legal `RDS` and an `RST`, each with its next state. -/
theorem witness_EveryCommandRecordsItsCode :
    (∃ t r, step (State.reset.present 0x04000000#32) = .next t ∧ t.answer = some r) ∧
      (∃ t r, step (State.reset.present 0x08000000#32) = .next t ∧ t.answer = some r) ∧
      (∃ t r, step (State.reset.present 0x0A000000#32) = .next t ∧ t.answer = some r) :=
  ⟨⟨_, _, rfl, rfl⟩, ⟨_, _, rfl, rfl⟩, ⟨_, _, rfl, rfl⟩⟩

theorem witness_FailingCommandsChangeNothingElse :
    ∃ t r, step (State.reset.present 0x04000000#32) = .next t ∧ t.answer = some r ∧ r.resp ≠ 0#4 ∧
      (0x04000000#32 : CmdWord) ≠ 0x09000000#32 :=
  ⟨_, _, rfl, rfl, by decide, by decide⟩

theorem witness_DataOnlyFromSuccessfulReads :
    ∃ t r, step (State.reset.present 0x06000000#32) = .next t ∧ t.answer = some r ∧
      ¬ (r.resp = 0#4 ∧ opField 0x06000000#32 ∈ [6#8, 7#8, 8#8]) :=
  ⟨_, _, rfl, rfl, by decide⟩

theorem witness_RegistersWrittenOnlyByTheirCommands :
    ∃ t, step (State.reset.present 0x01000001#32) = .next t ∧ t.cb ≠ State.reset.cb ∧ t.cbv ≠ State.reset.cbv :=
  ⟨_, rfl, by decide, by decide⟩

theorem witness_RegistersWrittenOnlyByTheirCommands_results :
    (∃ t, step ((withRaw 8 0 0 (calibrated mixed)).present 0x04000000#32) = .next t ∧ t.tscValid ≠ false) ∧
      (∃ t, step ((withTsc 0#64 (withRaw 8 0 0 (calibrated mixed))).present 0x05000000#32) = .next t ∧
        t.prsValid ≠ false) ∧
      (∃ t, step ((loaded mixed).present 0x02000000#32) = .next t ∧ t.calValid ≠ (loaded mixed).calValid) :=
  ⟨⟨_, rfl, by decide⟩, ⟨_, rfl, by decide⟩, ⟨_, rfl, by decide⟩⟩

theorem witness_CommandsLeaveTheStream : ∃ t, exec .rst (State.reset.present 0#32) = .next t := ⟨_, rfl⟩

theorem witness_IndexPastLimitAnswersBadIndex :
    (Instr.cld 18#8 0#8).wellFormed = false ∧ (Instr.mld 3#8 0#8).wellFormed = false ∧
      (Instr.rdc 9#8).wellFormed = false ∧ (Instr.rdr 4#8).wellFormed = false := by decide

theorem witness_ResetSetsEveryRegister : ({ State.reset with stream := [.rst] } : State).stream = .rst :: [] := by decide

/-- An illegal word of every opcode, for the error clause of every command's statement. -/
theorem witness_illegal_words :
    ∀ op : Fin 11, opField (commandWord (BitVec.ofNat 8 op) 0#8 1#8 0#8) = BitVec.ofNat 8 op ∧
      commandWord (BitVec.ofNat 8 op) 0#8 1#8 0#8 ≠ commandWord (BitVec.ofNat 8 op) 0#8 0#8 0#8 := by decide

theorem witness_CldLoadsOneCoefficientByte : (17#8).toNat < 18 ∧ 18 ≤ (18#8).toNat ∧ (1#8) ≠ 0#8 := by decide

theorem witness_CdecDecodesAllNine :
    (calibrated mixed).calValid = true ∧
      (State.reset.calValid = false ∧ ∃ k : Fin 18, State.reset.cbv[k] = false) ∧
      ((loaded mixed).calValid = false ∧ ∀ k : Fin 18, (loaded mixed).cbv[k] = true) := by decide +kernel

theorem witness_MldLoadsOneRawByte : (2#8).toNat < 3 ∧ 3 ≤ (3#8).toNat ∧ (1#8) ≠ 0#8 := by decide

theorem witness_CvtConvertsTemperature :
    State.reset.calValid = false ∧
      ((calibrated mixed).calValid = true ∧ ∃ k : Fin 3, (calibrated mixed).rbv[k] = false) ∧
      ((withRaw 8 0 0 (calibrated mixed)).calValid = true ∧
        ∀ k : Fin 3, (withRaw 8 0 0 (calibrated mixed)).rbv[k] = true) := by decide +kernel

theorem witness_CvpConvertsPressure :
    ((calibrated mixed).calValid = true ∧ (calibrated mixed).tscValid = false) ∧
      ((withTsc 0#64 (calibrated mixed)).tscValid = true ∧ ∃ k : Fin 3, (calibrated mixed).rbv[k] = false) ∧
      ((withTsc 0#64 (withRaw 8 0 0 (calibrated mixed))).calValid = true ∧
        (withTsc 0#64 (withRaw 8 0 0 (calibrated mixed))).tscValid = true ∧
        ∀ k : Fin 3, (withTsc 0#64 (withRaw 8 0 0 (calibrated mixed))).rbv[k] = true) := by decide +kernel

theorem witness_RdcReadsOneCoefficient :
    (8#8).toNat < 9 ∧ 9 ≤ (9#8).toNat ∧ (calibrated mixed).calValid = true ∧ State.reset.calValid = false := by decide +kernel

theorem witness_RdrReadsOneResult : (3#8).toNat < 4 ∧ 4 ≤ (4#8).toNat ∧ (1#8) ≠ 0#8 := by decide

theorem witness_BerrAbandonsWhatWasInProgress : State.reset.calValid = false := by decide

theorem witness_RstResetsLikeTheInput :
    ∃ t, step { State.reset with stream := [.rst] } = .next t := ⟨_, rfl⟩

theorem witness_RstResetsLikeTheInput_clears :
    ∃ t, step ((calibrated mixed).present 0x0A000000#32) = .next t ∧ (calibrated mixed).calValid = true ∧
      t.calValid = false :=
  ⟨_, rfl, rfl, rfl⟩

theorem witness_DecodingDependsOnBytesAlone :
    (loaded mixed).cb = (withRaw 1 2 3 (loaded mixed)).cb ∧
      (∃ t, exec .cdec (loaded mixed) = .next t ∧ t.answer = some ⟨0#4, 0#64⟩) ∧
      (∃ t, exec .cdec (withRaw 1 2 3 (loaded mixed)) = .next t ∧ t.answer = some ⟨0#4, 0#64⟩) :=
  ⟨rfl, ⟨_, rfl, rfl⟩, ⟨_, rfl, rfl⟩⟩

theorem witness_SignCorrectionAtEveryWidth : 0 < 12 ∧ 2 ^ 12 - 1 < 2 ^ 12 := by decide

/-- Index 17 loaded with a wrong byte first, then all indices in the reverse of the document's order. -/
theorem witness_LoadOrderDoesNotMatter :
    let loads : List (Fin 18 × Byte) := (17, 0xFF#8) :: (List.finRange 18).reverse.map (fun k => (k, mixed[k]))
    let s := { State.reset with
      stream := loads.map (fun (l : Fin 18 × Byte) => HostEvent.command (encode (.cld (BitVec.ofNat 8 l.1.val) l.2))) ++ [HostEvent.command (encode .cdec)] }
    s.calValid = false ∧ (∀ k : Fin 18, loads.reverse.lookup k = some mixed[k]) ∧ s.stream.length = 20 := by
  decide +kernel

theorem witness_Binary64OperationsRoundOnce :
    |(9007199254740991 : Int)| < 2 ^ 53 ∧ F64.isFinite 0x3FF0000000000000#64 = true ∧
      F64.isFinite 0x8000000000000001#64 = true := by decide +kernel

theorem one_le_maxFinite : (1 : Rat) ≤ maxFinite := by
  have h : (1 : Rat) ≤ 2 ^ 971 := one_le_pow₀ (by norm_num)
  exact one_le_mul_of_one_le_of_one_le (by norm_num) h

theorem witness_Binary64OperationsRoundOnce_range :
    |F64.toRat 0#64 + F64.toRat 0#64| ≤ maxFinite ∧ |F64.toRat 0#64 * F64.toRat 0#64| ≤ maxFinite := by
  have h : F64.toRat 0#64 = 0 := by
    have hu : F64.units 0#64 = 0 := by decide
    rw [F64.toRat, hu, Int.cast_zero, zero_div]
  rw [h, add_zero, mul_zero, abs_zero]
  exact ⟨zero_le_one.trans one_le_maxFinite, zero_le_one.trans one_le_maxFinite⟩

theorem witness_Binary64OperationsRoundOnce_quotient :
    F64.toRat 0x3FF0000000000000#64 ≠ 0 ∧
      |F64.toRat 0x3FF0000000000000#64 / F64.toRat 0x3FF0000000000000#64| ≤ maxFinite := by
  have h : F64.toRat 0x3FF0000000000000#64 = 1 := by
    have hu : F64.units 0x3FF0000000000000#64 = (F64.unitScale : Int) := by decide +kernel
    have hp : (F64.unitScale : Rat) ≠ 0 := by exact_mod_cast (by decide +kernel : F64.unitScale ≠ 0)
    rw [F64.toRat, hu]
    exact div_self hp
  rw [h]
  rw [div_one, abs_one]
  exact ⟨one_ne_zero, one_le_maxFinite⟩

/-- Both ends of the raw range: the hypotheses of every statement over raw values. -/
theorem witness_IsRaw : IsRaw (-8388608) ∧ IsRaw 8388607 := by unfold IsRaw; decide

/-- Two finite values, for the commutation clause of the evaluation order. -/
theorem witness_PressureEvaluationOrder :
    F64.isFinite 0x3FF0000000000000#64 = true ∧ F64.isFinite 0x8000000000000000#64 = true := by decide

/-- A state with the invariant (all bytes loaded, one failed command) and its step. -/
theorem witness_EveryStepKeepsTheInvariant :
    BlockInv { (loaded mixed).present 0x02000000#32 with firstErr := 3#4, lastErr := 3#4 } ∧
      ∃ t, step { (loaded mixed).present 0x02000000#32 with firstErr := 3#4, lastErr := 3#4 } = .next t :=
  ⟨{ lastErr_le := by decide
     firstErr_le := by decide
     no_error := by decide
     calibrated := nofun
     uncalibrated := fun _ => ⟨rfl, rfl⟩
     no_temperature := fun _ => ⟨rfl, rfl, rfl⟩
     temperature := nofun
     no_pressure := fun _ => ⟨rfl, rfl⟩
     pressure := nofun }, ⟨_, rfl⟩⟩

/-- A quiet run of one `NOP`, and one of a failing `CVT`. -/
theorem witness_ReadsRepeat :
    (∃ t, QuietStep (State.reset.present 0#32) t) ∧ (∃ t, QuietStep (State.reset.present 0x04000000#32) t) :=
  ⟨⟨_, rfl, 0#32, [], rfl, .inl ⟨.nop, by decide, by decide⟩⟩,
    ⟨_, rfl, 0x04000000#32, [], rfl, .inr ⟨_, rfl, by decide⟩⟩⟩

theorem witness_ConstructionIsAtomic_success :
    let s := { State.reset with stream := hostEvents construct (([0, 0, 0] ++ mixed.toList).map .done) }
    s.calValid = false ∧ s.stream.length = 19 := by decide +kernel

theorem witness_ConstructionIsAtomic_failure :
    let s := { State.reset with stream := hostEvents construct ((List.replicate 20 0#8).map BusAnswer.done ++ [BusAnswer.failed]) }
    s.calValid = false ∧ (List.replicate 20 0#8).length < 21 ∧ s.stream.length = 18 := by decide +kernel

theorem witness_MeasurementSequences :
    let answers : List BusAnswer := [.done 0#8, .done 8#8, .done 0#8, .done 0#8]
    (withTsc 0#64 (calibrated mixed)).calValid = true ∧ (withTsc 0#64 (calibrated mixed)).tscValid = true ∧
      (hostEvents measureTemperature answers).length = 4 ∧ (hostEvents measurePressure answers).length = 4 ∧
      (hostEvents measurePressure [.failed]).length = 1 := by decide +kernel

end Sys2Proof.Machine.Tests
end

section
/-! PROOF. Sign correction (00_scope.md R9): `twos` is the two's-complement value of the pattern, so a coefficient register
holds the pattern itself. -/

namespace Sys2Proof.Machine

/-- Below the sign bit `twos` is the number itself. -/
theorem twos_of_lt {u w : Nat} (h : u < 2 ^ (w - 1)) : twos u w = u :=
  if_neg (by omega)

/-- From the sign bit on `twos` subtracts `2^w`. -/
theorem twos_of_le {u w : Nat} (h : 2 ^ (w - 1) ≤ u) : twos u w = (u : Int) - 2 ^ w :=
  if_pos (by have := Nat.two_pow_pos (w - 1); omega)

theorem twos_eq_toInt {u w : Nat} (h : u < 2 ^ w) : twos u w = (BitVec.ofNat w u).toInt := by
  rw [BitVec.toInt_eq_msb_cond, BitVec.msb_eq_decide, BitVec.toNat_ofNat, Nat.mod_eq_of_lt h]
  by_cases hs : 2 ^ (w - 1) ≤ u
  · simp [twos_of_le hs, hs]
  · simp [twos_of_lt (not_le.mp hs), hs]

theorem twos_eq_if_msb {u w : Nat} (h : u < 2 ^ w) :
    twos u w = if (BitVec.ofNat w u).msb then (u : Int) - 2 ^ w else (u : Int) := by
  rw [twos_eq_toInt h, BitVec.toInt_eq_msb_cond, BitVec.toNat_ofNat, Nat.mod_eq_of_lt h, Nat.cast_pow, Nat.cast_ofNat]

/-- A coefficient register holds the pattern it is given (log entry 10). -/
theorem coefficient_eq_ofNat {u w : Nat} (h : u < 2 ^ w) : coefficient w u = BitVec.ofNat w u := by
  rw [coefficient, twos_eq_toInt h, BitVec.ofInt_toInt]

theorem coefficient_toInt {u w : Nat} (h : u < 2 ^ w) : (coefficient w u).toInt = twos u w := by
  rw [coefficient_eq_ofNat h, twos_eq_toInt h]

theorem neg_two_pow_le_twos {u w : Nat} (h : u < 2 ^ w) : -(2 ^ (w - 1) : Int) ≤ twos u w :=
  twos_eq_toInt h ▸ BitVec.le_toInt _

theorem twos_lt_two_pow {u w : Nat} (h : u < 2 ^ w) : twos u w < 2 ^ (w - 1) :=
  twos_eq_toInt h ▸ BitVec.toInt_lt

/-- The corners of R119: the sign bit alone, all bits but the sign bit, no bit, every bit. -/
theorem twos_corners {w : Nat} (hw : 0 < w) :
    twos (2 ^ (w - 1)) w = -(2 ^ (w - 1) : Int) ∧ twos (2 ^ (w - 1) - 1) w = 2 ^ (w - 1) - 1 ∧
    twos 0 w = 0 ∧ twos (2 ^ w - 1) w = -1 := by
  have hp : 0 < 2 ^ (w - 1) := Nat.two_pow_pos _
  have hd : 2 ^ w = 2 * 2 ^ (w - 1) := (mul_pow_sub_one hw.ne' 2).symm
  have hdi : (2 : Int) ^ w = 2 * 2 ^ (w - 1) := (mul_pow_sub_one hw.ne' 2).symm
  refine ⟨?_, ?_, twos_of_lt hp, ?_⟩
  · rw [twos_of_le le_rfl, hdi]
    push_cast
    ring
  · rw [twos_of_lt (Nat.sub_one_lt hp.ne'), Nat.cast_pred hp]
    push_cast
    rfl
  · rw [twos_of_le (by omega), Nat.cast_pred (Nat.two_pow_pos w)]
    push_cast
    ring

/-- Settles O31: `twos` is the two's-complement value of the pattern, whose range and sign bit the library knows; the corners
by the rule on each side of the sign bit. -/
theorem signCorrectionAtEveryWidth : Obligations.SignCorrectionAtEveryWidth := fun _ hw =>
  ⟨fun _ hu => ⟨twos_eq_if_msb hu, twos_eq_toInt hu, coefficient_toInt hu, neg_two_pow_le_twos hu,
    Int.le_sub_one_of_lt (twos_lt_two_pow hu)⟩, twos_corners hw⟩

end Sys2Proof.Machine
end

section
/-! PROOF. `roundHalfEven` gives a nearest integer, and the even one of two. -/

namespace Sys2Proof

/-- The rounded quotient lies within one half of the exact one, and at one half only where it is even. -/
theorem roundHalfEven_error (n : Nat) {d : Nat} (hd : 0 < d) :
    |(roundHalfEven n d : Rat) - n / d| ≤ 1 / 2 ∧
      (|(roundHalfEven n d : Rat) - n / d| = 1 / 2 → roundHalfEven n d % 2 = 0) := by
  have hd' : (0 : Rat) < d := by exact_mod_cast hd
  have hx : (n : Rat) / d = (n / d : Nat) + (n % d : Nat) / d := by
    rw [div_eq_iff hd'.ne', add_mul, div_mul_cancel₀ _ hd'.ne']
    exact_mod_cast (Nat.div_add_mod' n d).symm
  have hr0 : (0 : Rat) ≤ (n % d : Nat) / d := by positivity
  have hr1 : ((n % d : Nat) : Rat) / d < 1 := (div_lt_one hd').mpr (by exact_mod_cast Nat.mod_lt n hd)
  have hle : 2 * (n % d) ≤ d ↔ ((n % d : Nat) : Rat) / d ≤ 1 / 2 := by
    rw [div_le_div_iff₀ hd' two_pos, one_mul, mul_comm]
    exact_mod_cast Iff.rfl
  have hge : d ≤ 2 * (n % d) ↔ 1 / 2 ≤ ((n % d : Nat) : Rat) / d := by
    rw [div_le_div_iff₀ two_pos hd', one_mul, mul_comm]
    exact_mod_cast Iff.rfl
  rw [hx, roundHalfEven]
  split
  · next hup =>
    have hf := hge.mp (by omega)
    rw [abs_of_nonneg (by push_cast; linarith)]
    refine ⟨by push_cast; linarith, fun htie => ?_⟩
    have := hle.mpr (by push_cast at htie; linarith)
    omega
  · next hdown =>
    have hf := hle.mp (by omega)
    rw [abs_of_nonpos (by linarith)]
    refine ⟨by linarith, fun htie => ?_⟩
    have := hge.mpr (by linarith)
    omega

theorem roundHalfEven_le {n d c : Nat} (hd : 0 < d) (h : (n : Rat) / d ≤ c) : roundHalfEven n d ≤ c := by
  have he := (abs_le.mp (roundHalfEven_error n hd).1).2
  have : (roundHalfEven n d : Rat) < (c + 1 : Nat) := by push_cast; linarith
  exact Nat.lt_succ_iff.mp (by exact_mod_cast this)

theorem le_roundHalfEven {n d c : Nat} (hd : 0 < d) (h : (c : Rat) ≤ n / d) : c ≤ roundHalfEven n d := by
  have he := (abs_le.mp (roundHalfEven_error n hd).1).1
  have : (c : Rat) < (roundHalfEven n d + 1 : Nat) := by push_cast; linarith
  exact Nat.lt_succ_iff.mp (by exact_mod_cast this)

/-- An integer quotient is its own rounding. -/
theorem roundHalfEven_of_eq {n d c : Nat} (hd : 0 < d) (h : (n : Rat) / d = c) : roundHalfEven n d = c :=
  le_antisymm (roundHalfEven_le hd h.le) (le_roundHalfEven hd h.ge)

/-- No integer is nearer, and another equally near leaves the even one. -/
theorem roundHalfEven_nearest (n : Nat) {d : Nat} (hd : 0 < d) (t : Int) :
    |(roundHalfEven n d : Rat) - n / d| ≤ |(t : Rat) - n / d| ∧
      (|(roundHalfEven n d : Rat) - n / d| = |(t : Rat) - n / d| → t = roundHalfEven n d ∨ roundHalfEven n d % 2 = 0) := by
  obtain ⟨hhalf, heven⟩ := roundHalfEven_error n hd
  rcases eq_or_ne t (roundHalfEven n d) with rfl | hne
  · exact ⟨by simp, fun _ => .inl rfl⟩
  · have hone : (1 : Rat) ≤ |(t : Rat) - roundHalfEven n d| := by
      exact_mod_cast Int.one_le_abs (sub_ne_zero.mpr hne)
    have htri := abs_sub_le (t : Rat) (n / d) (roundHalfEven n d)
    rw [abs_sub_comm ((n : Rat) / d)] at htri
    exact ⟨by linarith, fun htie => .inr (heven (by linarith))⟩

end Sys2Proof
end

section
/-! PROOF. The fields and the value of an encoding, and how a nonnegative value counts in the last places around it. -/

namespace Sys2Proof

/-- A rational with a sign bit. -/
def withSign (neg : Bool) (q : Rat) : Rat := if neg then -q else q

@[simp] theorem withSign_true (q : Rat) : withSign true q = -q := rfl

@[simp] theorem withSign_false (q : Rat) : withSign false q = q := rfl

@[simp] theorem withSign_zero (neg : Bool) : withSign neg 0 = 0 := by
  cases neg <;> simp

@[simp] theorem withSign_withSign (neg : Bool) (q : Rat) : withSign neg (withSign neg q) = q := by
  cases neg <;> simp

@[simp] theorem abs_withSign (neg : Bool) (q : Rat) : |withSign neg q| = |q| := by
  cases neg <;> simp

theorem withSign_sub (neg : Bool) (p q : Rat) : withSign neg p - withSign neg q = withSign neg (p - q) := by
  cases neg <;> simp [neg_add_eq_sub]

theorem withSign_mul_withSign (a b : Bool) (p q : Rat) : withSign a p * withSign b q = withSign (a != b) (p * q) := by
  cases a <;> cases b <;> simp

theorem withSign_div_withSign (a b : Bool) (p q : Rat) : withSign a p / withSign b q = withSign (a != b) (p / q) := by
  cases a <;> cases b <;> simp [neg_div, div_neg]

theorem withSign_div (neg : Bool) (p q : Rat) : withSign neg p / q = withSign neg (p / q) := by
  cases neg <;> simp [neg_div]

/-- An integer is its magnitude with its sign. -/
theorem withSign_natAbs (n : Int) : withSign (decide (n < 0)) n.natAbs = n := by
  rw [Nat.cast_natAbs, Int.cast_abs]
  by_cases h : n < 0
  · simp [h, abs_of_neg (Int.cast_lt_zero.mpr h)]
  · simp [h, abs_of_nonneg (Int.cast_nonneg (not_lt.mp h))]

namespace F64

theorem unitScale_pos : 0 < unitScale := by decide +kernel

theorem unitScale_cast_pos : (0 : Rat) < unitScale := Nat.cast_pos.mpr unitScale_pos

theorem units_cast (x : F64) : (x.units : Rat) = withSign x.sign x.magnitude := by
  unfold units
  cases x.sign <;> simp

theorem toRat_eq (x : F64) : x.toRat = withSign x.sign (x.magnitude / unitScale) := by
  rw [toRat, units_cast, withSign_div]

theorem abs_units (x : F64) : |x.units| = x.magnitude := by
  unfold units
  cases x.sign <;> simp

theorem toRat_eq_zero {x : F64} (h : x.magnitude = 0) : x.toRat = 0 := by
  rw [toRat_eq, h, Nat.cast_zero, zero_div, withSign_zero]

/-- A value is a whole number of places of `2^j` units, or less than `2^52` of them. -/
theorem two_pow_dvd_magnitude_or_lt (x : F64) (j : Nat) : 2 ^ j ∣ x.magnitude ∨ x.magnitude < 2 ^ (52 + j) := by
  have hfrac : x.fracField < 2 ^ 52 := Nat.mod_lt _ (Nat.two_pow_pos _)
  unfold magnitude
  split
  · exact .inr (hfrac.trans_le (Nat.pow_le_pow_right two_pos (Nat.le_add_right _ _)))
  · rcases le_or_gt j (x.expField - 1) with hj | hj
    · exact .inl (Dvd.dvd.mul_left (pow_dvd_pow 2 hj) _)
    · right
      calc (x.fracField + 2 ^ 52) * 2 ^ (x.expField - 1)
          < 2 ^ 53 * 2 ^ (x.expField - 1) := Nat.mul_lt_mul_of_pos_right (by omega) (Nat.two_pow_pos _)
        _ = 2 ^ (53 + (x.expField - 1)) := (pow_add ..).symm
        _ ≤ 2 ^ (52 + j) := Nat.pow_le_pow_right two_pos (by omega)

/-! ### `pack` -/

section
variable (neg : Bool) {body : Nat}

theorem toNat_pack (h : body < 2 ^ 63) : (pack neg body).toNat = (if neg then 2 ^ 63 else 0) + body := by
  rw [pack, BitVec.toNat_ofNat, Nat.mod_eq_of_lt]
  split <;> omega

theorem sign_pack (h : body < 2 ^ 63) : (pack neg body).sign = neg := by
  have hmsb : (pack neg body).sign = (pack neg body).msb := rfl
  rw [hmsb, BitVec.msb_eq_decide, toNat_pack neg h]
  cases neg
  · exact decide_eq_false (by simpa using h)
  · exact decide_eq_true (by simp)

theorem expField_pack (h : body < 2 ^ 63) : (pack neg body).expField = body / 2 ^ 52 := by
  rw [expField, toNat_pack neg h]
  split <;> omega

theorem fracField_pack (h : body < 2 ^ 63) : (pack neg body).fracField = body % 2 ^ 52 := by
  rw [fracField, toNat_pack neg h]
  split <;> omega

theorem isFinite_pack (h : body < infBody) : (pack neg body).isFinite = true := by
  unfold infBody at h
  rw [isFinite, expField_pack neg (by omega), bne_iff_ne]
  omega

theorem getLsbD_zero_pack (h : body < 2 ^ 63) : (pack neg body).getLsbD 0 = decide (body % 2 = 1) := by
  have hlow : ((if neg then 2 ^ 63 else 0) + body) % 2 = body % 2 := by split <;> omega
  rw [BitVec.getLsbD, toNat_pack neg h, Nat.testBit_zero, hlow]

/-- `k` places of `2^j` units are encoded by `j * 2^52 + k`: a subnormal, a normal value, or the start of the next binade. -/
theorem magnitude_pack {j k : Nat} (hk : k ≤ 2 ^ 53) (hj : j ≠ 0 → 2 ^ 52 ≤ k) (h : j * 2 ^ 52 + k < 2 ^ 63) :
    (pack neg (j * 2 ^ 52 + k)).magnitude = k * 2 ^ j := by
  rw [magnitude, expField_pack neg h, fracField_pack neg h]
  rcases lt_or_ge k (2 ^ 52) with hsub | hnorm
  · obtain rfl : j = 0 := by_contra fun h0 => absurd (hj h0) (by omega)
    rw [if_pos (by omega), pow_zero]
    omega
  · rw [if_neg (by omega)]
    rcases hk.lt_or_eq with hlt | rfl
    · rw [show (j * 2 ^ 52 + k) % 2 ^ 52 + 2 ^ 52 = k by omega, show (j * 2 ^ 52 + k) / 2 ^ 52 - 1 = j by omega]
    · rw [show (j * 2 ^ 52 + 2 ^ 53) % 2 ^ 52 + 2 ^ 52 = 2 ^ 52 by omega,
        show (j * 2 ^ 52 + 2 ^ 53) / 2 ^ 52 - 1 = j + 1 by omega]
      ring

end

end F64
end Sys2Proof
end

section
/-! PROOF. `F64.round` gives the binary64 value roundTiesToEven asks for (00_scope.md R10), wherever the exact value is within
the finite range. -/

namespace Sys2Proof.F64

/-! ### The last place -/

theorem lt_two_pow_lastPlace (t : Nat) : t < 2 ^ (53 + lastPlace t) :=
  Nat.lt_log2_self.trans_le (Nat.pow_le_pow_right two_pos (by unfold lastPlace; omega))

theorem two_pow_lastPlace_le {t : Nat} (h : lastPlace t ≠ 0) : 2 ^ (52 + lastPlace t) ≤ t := by
  unfold lastPlace at h ⊢
  have ht : t ≠ 0 := by
    rintro rfl
    simp at h
  rw [show 52 + (t.log2 - 52) = t.log2 by omega]
  exact Nat.log2_self_le ht

/-! ### The significand -/

/-- How many last places `F64.round` gives `n / d`. -/
def significand (n d : Nat) : Nat := roundHalfEven n (d * 2 ^ lastPlace (n / d))

theorem round_eq_pack (neg : Bool) (n d : Nat) :
    round neg n d = pack neg (min (lastPlace (n / d) * 2 ^ 52 + significand n d) infBody) := rfl

section
variable {n d : Nat}

theorem cast_div_places (n d j : Nat) : (n : Rat) / (d * 2 ^ j : Nat) = n / d / 2 ^ j := by
  push_cast
  exact (div_div _ _ _).symm

theorem places_pos (hd : 0 < d) (j : Nat) : 0 < d * 2 ^ j := Nat.mul_pos hd (Nat.two_pow_pos j)

theorem quotient_lt_lastPlace (hd : 0 < d) : (n : Rat) / d < 2 ^ (53 + lastPlace (n / d)) := by
  have h := (Nat.div_lt_iff_lt_mul hd).mp (lt_two_pow_lastPlace (n / d))
  rw [div_lt_iff₀ (by exact_mod_cast hd)]
  exact_mod_cast h

theorem lastPlace_le_quotient (h : lastPlace (n / d) ≠ 0) : (2 : Rat) ^ (52 + lastPlace (n / d)) ≤ n / d :=
  calc (2 : Rat) ^ (52 + lastPlace (n / d)) ≤ (n / d : Nat) := by exact_mod_cast two_pow_lastPlace_le h
    _ ≤ n / d := Nat.cast_div_le

theorem significand_le_of_quotient_le {c : Nat} (hd : 0 < d) (h : (n : Rat) / d ≤ c * 2 ^ lastPlace (n / d)) :
    significand n d ≤ c :=
  roundHalfEven_le (places_pos hd _) (by rwa [cast_div_places, div_le_iff₀ (by positivity)])

theorem significand_le (hd : 0 < d) : significand n d ≤ 2 ^ 53 :=
  significand_le_of_quotient_le hd (by
    have h := (quotient_lt_lastPlace (n := n) hd).le
    rw [pow_add] at h
    exact_mod_cast h)

theorem le_significand (hd : 0 < d) (h : lastPlace (n / d) ≠ 0) : 2 ^ 52 ≤ significand n d :=
  le_roundHalfEven (places_pos hd _) (by
    rw [cast_div_places, le_div_iff₀ (by positivity)]
    have h' := lastPlace_le_quotient h
    rw [pow_add] at h'
    exact_mod_cast h')

/-- A whole number of last places is its own significand. -/
theorem significand_of_eq {c : Nat} (hd : 0 < d) (h : (n : Rat) / d = c * 2 ^ lastPlace (n / d)) : significand n d = c :=
  roundHalfEven_of_eq (places_pos hd _) (by rw [cast_div_places, h, mul_div_cancel_right₀ _ (by positivity)])

/-- No whole number of last places is nearer. -/
theorem significand_nearest_of_places (hd : 0 < d) (t : Int) :
    |(significand n d * 2 ^ lastPlace (n / d) : Rat) - n / d| ≤ |(t * 2 ^ lastPlace (n / d) : Rat) - n / d| ∧
      (|(significand n d * 2 ^ lastPlace (n / d) : Rat) - n / d| = |(t * 2 ^ lastPlace (n / d) : Rat) - n / d| →
        t = significand n d ∨ significand n d % 2 = 0) := by
  have hp : (0 : Rat) < 2 ^ lastPlace (n / d) := by positivity
  have hscale (q : Rat) : |q * 2 ^ lastPlace (n / d) - n / d| =
      |q - n / (d * 2 ^ lastPlace (n / d) : Nat)| * 2 ^ lastPlace (n / d) := by
    rw [cast_div_places, ← abs_of_pos hp, ← abs_mul, abs_of_pos hp, sub_mul, div_mul_cancel₀ _ hp.ne']
  obtain ⟨hle, htie⟩ := roundHalfEven_nearest n (places_pos hd (lastPlace (n / d))) t
  rw [hscale, hscale]
  exact ⟨mul_le_mul_of_nonneg_right hle hp.le, fun h => htie (mul_right_cancel₀ hp.ne' h)⟩

/-- No number of units that a binary64 value can have is nearer: one below the last place is below `2^52` last places, which
the exact value is not. -/
theorem significand_nearest (hd : 0 < d) {v : Int}
    (hv : (2 : Int) ^ lastPlace (n / d) ∣ v ∨ |v| < 2 ^ (52 + lastPlace (n / d))) :
    |(significand n d * 2 ^ lastPlace (n / d) : Rat) - n / d| ≤ |(v : Rat) - n / d| ∧
      (|(significand n d * 2 ^ lastPlace (n / d) : Rat) - n / d| = |(v : Rat) - n / d| →
        (v : Rat) = significand n d * 2 ^ lastPlace (n / d) ∨ significand n d % 2 = 0) := by
  by_cases hdvd : (2 : Int) ^ lastPlace (n / d) ∣ v
  · obtain ⟨t, rfl⟩ := hdvd
    obtain ⟨hle, htie⟩ := significand_nearest_of_places (n := n) hd t
    rw [mul_comm ((2 : Int) ^ _) t]
    push_cast
    exact ⟨hle, fun h => (htie h).imp_left fun ht => by rw [ht, Int.cast_natCast]⟩
  · have hlp : lastPlace (n / d) ≠ 0 := fun h0 => hdvd (by rw [h0, pow_zero]; exact one_dvd v)
    have hx := lastPlace_le_quotient hlp
    have hvlt : (v : Rat) < 2 ^ (52 + lastPlace (n / d)) := by
      exact_mod_cast (le_abs_self v).trans_lt (hv.resolve_left hdvd)
    have hle := (significand_nearest_of_places (n := n) hd (2 ^ 52)).1
    have hlt : |(significand n d * 2 ^ lastPlace (n / d) : Rat) - n / d| < |(v : Rat) - n / d| := by
      rw [Int.cast_pow, Int.cast_ofNat, ← pow_add, abs_of_nonpos (sub_nonpos.mpr hx)] at hle
      rw [abs_of_neg (sub_neg.mpr (hvlt.trans_le hx))]
      linarith
    exact ⟨hlt.le, fun h => absurd h hlt.ne⟩

end

/-! ### The finite range -/

/-- How far the last place of the largest finite values lies above one unit. -/
def maxLastPlace : Nat := 2045

/-- `maxFinite` in units: 53 ones in the last place of the largest binade. -/
theorem maxFinite_mul_unitScale : Machine.maxFinite * unitScale = (2 ^ 53 - 1) * 2 ^ maxLastPlace := by
  rw [Machine.maxFinite, unitScale, Nat.cast_pow, Nat.cast_ofNat, mul_assoc, ← pow_add, maxLastPlace]

/-- `n / d` units are a quantity of the finite range. -/
structure InFiniteRange (n d : Nat) : Prop where
  den_pos : 0 < d
  quotient_le : (n : Rat) / d ≤ (2 ^ 53 - 1) * 2 ^ maxLastPlace

theorem inFiniteRange_of_div_le {n d : Nat} (hd : 0 < d) (h : (n : Rat) / d / unitScale ≤ Machine.maxFinite) :
    InFiniteRange n d :=
  ⟨hd, by rwa [div_le_iff₀ unitScale_cast_pos, maxFinite_mul_unitScale] at h⟩

section
variable {n d : Nat}

namespace InFiniteRange

theorem lastPlace_le (h : InFiniteRange n d) : lastPlace (n / d) ≤ maxLastPlace := by
  by_contra! hj
  have hlt : (2 : Rat) ^ (52 + lastPlace (n / d)) < 2 ^ (52 + (maxLastPlace + 1)) :=
    calc (2 : Rat) ^ (52 + lastPlace (n / d)) ≤ n / d := lastPlace_le_quotient (by omega)
      _ ≤ (2 ^ 53 - 1) * 2 ^ maxLastPlace := h.quotient_le
      _ < 2 ^ 53 * 2 ^ maxLastPlace := mul_lt_mul_of_pos_right (sub_one_lt _) (by positivity)
      _ = 2 ^ (52 + (maxLastPlace + 1)) := (pow_add ..).symm
  have := (pow_lt_pow_iff_right₀ one_lt_two).mp hlt
  omega

/-- The encoding stays below that of infinity. -/
theorem body_lt_infBody (h : InFiniteRange n d) : lastPlace (n / d) * 2 ^ 52 + significand n d < infBody := by
  have hmax : infBody = (maxLastPlace + 2) * 2 ^ 52 := rfl
  rcases h.lastPlace_le.lt_or_eq with hlt | heq
  · have := significand_le (n := n) h.den_pos
    omega
  · have : significand n d ≤ 2 ^ 53 - 1 := significand_le_of_quotient_le h.den_pos (by
      rw [heq, Nat.cast_pred (Nat.two_pow_pos 53)]
      exact_mod_cast h.quotient_le)
    omega

end InFiniteRange

theorem body_lt (h : InFiniteRange n d) : lastPlace (n / d) * 2 ^ 52 + significand n d < 2 ^ 63 :=
  h.body_lt_infBody.trans (by decide)

theorem round_eq_pack_of_inFiniteRange (neg : Bool) (h : InFiniteRange n d) :
    round neg n d = pack neg (lastPlace (n / d) * 2 ^ 52 + significand n d) := by
  rw [round_eq_pack, min_eq_left h.body_lt_infBody.le]

/-! ### What `round` gives -/

theorem isFinite_round (neg : Bool) (h : InFiniteRange n d) : (round neg n d).isFinite = true := by
  rw [round_eq_pack_of_inFiniteRange neg h, isFinite_pack neg h.body_lt_infBody]

theorem sign_round (neg : Bool) (h : InFiniteRange n d) : (round neg n d).sign = neg := by
  rw [round_eq_pack_of_inFiniteRange neg h, sign_pack neg (body_lt h)]

theorem magnitude_round (neg : Bool) (h : InFiniteRange n d) :
    (round neg n d).magnitude = significand n d * 2 ^ lastPlace (n / d) := by
  rw [round_eq_pack_of_inFiniteRange neg h,
    magnitude_pack neg (significand_le h.den_pos) (le_significand h.den_pos) (body_lt h)]

theorem toRat_round (neg : Bool) (h : InFiniteRange n d) :
    (round neg n d).toRat = withSign neg (significand n d * 2 ^ lastPlace (n / d) / unitScale) := by
  rw [toRat_eq, sign_round neg h, magnitude_round neg h, Nat.cast_mul, Nat.cast_pow, Nat.cast_ofNat]

theorem getLsbD_zero_round (neg : Bool) (h : InFiniteRange n d) :
    (round neg n d).getLsbD 0 = decide (significand n d % 2 = 1) := by
  rw [round_eq_pack_of_inFiniteRange neg h, getLsbD_zero_pack neg (body_lt h)]
  congr 2
  omega

theorem lastPlace_le_of_lt {t i : Nat} (h : t < 2 ^ (53 + i)) : lastPlace t ≤ i := by
  by_contra! hlt
  have hle := (two_pow_lastPlace_le (Nat.ne_zero_of_lt hlt)).trans_lt h
  have := (Nat.pow_lt_pow_iff_right one_lt_two).mp hle
  omega

/-- A quantity that is a binary64 magnitude rounds to itself. -/
theorem magnitude_round_of_eq (neg : Bool) {m i : Nat} (h : InFiniteRange n d) (hm : m < 2 ^ 53)
    (hx : n = m * 2 ^ i * d) : (round neg n d).magnitude = m * 2 ^ i := by
  have hfloor : n / d = m * 2 ^ i := by rw [hx, Nat.mul_div_cancel _ h.den_pos]
  have hi : lastPlace (n / d) ≤ i := lastPlace_le_of_lt (by
    rw [hfloor, pow_add]
    exact Nat.mul_lt_mul_of_pos_right hm (Nat.two_pow_pos i))
  have hplaces : m * 2 ^ (i - lastPlace (n / d)) * 2 ^ lastPlace (n / d) = m * 2 ^ i := by
    rw [mul_assoc, ← pow_add, Nat.sub_add_cancel hi]
  have hsig : significand n d = m * 2 ^ (i - lastPlace (n / d)) := significand_of_eq h.den_pos (by
    rw [div_eq_iff (Nat.cast_ne_zero.mpr h.den_pos.ne')]
    exact_mod_cast hplaces ▸ hx)
  rw [magnitude_round neg h, hsig, hplaces]

end

/-- The difference of two values, measured in units from the side of `neg`. -/
theorem abs_toRat_sub_withSign (neg : Bool) (g : F64) (q : Rat) :
    |g.toRat - withSign neg (q / unitScale)| = |withSign neg g.units - q| / unitScale := by
  rw [toRat, ← withSign_withSign neg (g.units : Rat), withSign_div, withSign_sub, abs_withSign, withSign_withSign,
    ← sub_div, abs_div, abs_of_pos unitScale_cast_pos]

/-- Whatever the sign, the units of a value are whole last places or less than `2^52` of them. -/
theorem exists_int_withSign_units (neg : Bool) (g : F64) (j : Nat) :
    ∃ v : Int, withSign neg g.units = v ∧ ((2 : Int) ^ j ∣ v ∨ |v| < 2 ^ (52 + j)) := by
  have habs : (2 : Int) ^ j ∣ |g.units| ∨ |g.units| < 2 ^ (52 + j) := by
    rw [abs_units]
    exact_mod_cast two_pow_dvd_magnitude_or_lt g j
  rw [dvd_abs] at habs
  cases neg
  · exact ⟨g.units, rfl, habs⟩
  · exact ⟨-g.units, (Int.cast_neg _).symm, by rwa [dvd_neg, abs_neg]⟩

/-- `round` is correctly rounded: one rounding of the exact quantity, to nearest, ties to even. -/
theorem roundsTo_round (neg : Bool) {n d : Nat} (h : InFiniteRange n d) :
    Machine.RoundsTo (withSign neg (n / d / unitScale)) (round neg n d) := by
  refine ⟨isFinite_round neg h, fun g _ => ?_⟩
  obtain ⟨v, hgv, hv⟩ := exists_int_withSign_units neg g (lastPlace (n / d))
  obtain ⟨hle, htie⟩ := significand_nearest h.den_pos hv
  have hf : |(round neg n d).toRat - withSign neg (n / d / unitScale)| =
      |(significand n d * 2 ^ lastPlace (n / d) : Rat) - n / d| / unitScale := by
    rw [toRat_round neg h, withSign_sub, abs_withSign, ← sub_div, abs_div, abs_of_pos unitScale_cast_pos]
  rw [hf, abs_toRat_sub_withSign, hgv]
  refine ⟨div_le_div_of_nonneg_right hle unitScale_cast_pos.le, fun heq => ?_⟩
  refine (htie ((div_left_inj' unitScale_cast_pos.ne').mp heq)).imp (fun hvs => ?_) (fun heven => ?_)
  · rw [toRat_round neg h, ← hvs, ← hgv, ← withSign_div, withSign_withSign, toRat]
  · rw [getLsbD_zero_round neg h, heven]
    rfl

/-- `round` at an exact value given as a rational. -/
theorem roundsTo_round_of_eq {neg : Bool} {n d : Nat} {x : Rat} (hd : 0 < d) (hx : x = withSign neg (n / d / unitScale))
    (hr : |x| ≤ Machine.maxFinite) : Machine.RoundsTo x (round neg n d) := by
  subst hx
  rw [abs_withSign] at hr
  exact roundsTo_round neg (inFiniteRange_of_div_le hd ((le_abs_self _).trans hr))

end Sys2Proof.F64
end

section
/-! PROOF. `f64(n)`, `fadd`, `fmul` and `fdiv` on finite operands (00_scope.md R10). -/

namespace Sys2Proof

/-! ### The operations on finite operands -/

theorem F64.isNaN_of_isFinite {x : F64} (h : x.isFinite = true) : x.isNaN = false := by
  simp_all [F64.isFinite, F64.isNaN]

theorem F64.isInf_of_isFinite {x : F64} (h : x.isFinite = true) : x.isInf = false := by
  simp_all [F64.isFinite, F64.isInf]

/-- A zero is the rounding of an exact zero. -/
theorem F64.zero_eq_round (neg : Bool) : F64.zero neg = F64.round neg 0 1 := by
  cases neg <;> decide

section
variable {x y : F64} (hx : x.isFinite = true) (hy : y.isFinite = true)
include hx hy

theorem fadd_of_isFinite : fadd x y =
    if x.units + y.units = 0 then F64.zero (x.sign && y.sign)
    else F64.round (decide (x.units + y.units < 0)) (x.units + y.units).natAbs 1 := by
  simp [fadd, F64.isNaN_of_isFinite, F64.isInf_of_isFinite, hx, hy]

theorem fmul_of_isFinite : fmul x y = F64.round (x.sign != y.sign) (x.magnitude * y.magnitude) F64.unitScale := by
  simp [fmul, F64.isNaN_of_isFinite, F64.isInf_of_isFinite, hx, hy]

theorem fdiv_of_isFinite (h0 : y.magnitude ≠ 0) :
    fdiv x y = F64.round (x.sign != y.sign) (x.magnitude * F64.unitScale) y.magnitude := by
  simp [fdiv, F64.isNaN_of_isFinite, F64.isInf_of_isFinite, hx, hy, h0]

/-! ### Each rounds the exact result once -/

theorem fadd_roundsTo (hr : |x.toRat + y.toRat| ≤ Machine.maxFinite) :
    Machine.RoundsTo (x.toRat + y.toRat) (fadd x y) := by
  have hsum : x.toRat + y.toRat = ((x.units + y.units : Int) : Rat) / F64.unitScale := by
    rw [F64.toRat, F64.toRat, Int.cast_add, add_div]
  rw [fadd_of_isFinite hx hy]
  split
  · next h0 =>
    rw [F64.zero_eq_round]
    refine F64.roundsTo_round_of_eq one_pos ?_ hr
    rw [hsum, h0, Int.cast_zero, Nat.cast_zero, zero_div, zero_div, zero_div, withSign_zero]
  · refine F64.roundsTo_round_of_eq one_pos ?_ hr
    rw [Nat.cast_one, div_one, ← withSign_div, withSign_natAbs, hsum]

theorem fmul_roundsTo (hr : |x.toRat * y.toRat| ≤ Machine.maxFinite) :
    Machine.RoundsTo (x.toRat * y.toRat) (fmul x y) := by
  rw [fmul_of_isFinite hx hy]
  refine F64.roundsTo_round_of_eq F64.unitScale_pos ?_ hr
  rw [F64.toRat_eq, F64.toRat_eq, withSign_mul_withSign, Nat.cast_mul, div_mul_div_comm, div_div]

theorem fdiv_roundsTo (h0 : y.toRat ≠ 0) (hr : |x.toRat / y.toRat| ≤ Machine.maxFinite) :
    Machine.RoundsTo (x.toRat / y.toRat) (fdiv x y) := by
  have hm : y.magnitude ≠ 0 := fun h => h0 (F64.toRat_eq_zero h)
  rw [fdiv_of_isFinite hx hy hm]
  refine F64.roundsTo_round_of_eq (Nat.pos_of_ne_zero hm) ?_ hr
  have hS := F64.unitScale_cast_pos.ne'
  rw [F64.toRat_eq, F64.toRat_eq, withSign_div_withSign, Nat.cast_mul, div_div_div_cancel_right₀ hS, div_right_comm,
    mul_div_cancel_right₀ _ hS]

end

/-! ### `f64(n)` is exact -/

theorem natAbs_lt_two_pow {n : Int} (h : |n| < 2 ^ 53) : n.natAbs < 2 ^ 53 := by
  rw [Int.abs_eq_natAbs] at h
  exact_mod_cast h

theorem F64.inFiniteRange_ofInt {n : Int} (h : |n| < 2 ^ 53) : F64.InFiniteRange (n.natAbs * F64.unitScale) 1 := by
  refine F64.inFiniteRange_of_div_le one_pos ?_
  rw [Nat.cast_one, div_one, Nat.cast_mul, mul_div_cancel_right₀ _ F64.unitScale_cast_pos.ne']
  have hn : ((n.natAbs : Nat) : Rat) ≤ 2 ^ 53 - 1 := by
    rw [le_sub_iff_add_le]
    exact_mod_cast natAbs_lt_two_pow h
  exact hn.trans (le_mul_of_one_le_right (by norm_num) (one_le_pow₀ one_le_two))

theorem F64.isFinite_ofInt {n : Int} (h : |n| < 2 ^ 53) : (F64.ofInt n).isFinite = true :=
  F64.isFinite_round _ (F64.inFiniteRange_ofInt h)

theorem F64.toRat_ofInt {n : Int} (h : |n| < 2 ^ 53) : (F64.ofInt n).toRat = n := by
  have hmag : (F64.ofInt n).magnitude = n.natAbs * F64.unitScale :=
    F64.magnitude_round_of_eq _ (F64.inFiniteRange_ofInt h) (natAbs_lt_two_pow h) (mul_one _).symm
  rw [F64.toRat_eq, hmag, F64.ofInt, F64.sign_round _ (F64.inFiniteRange_ofInt h), Nat.cast_mul,
    mul_div_cancel_right₀ _ F64.unitScale_cast_pos.ne', withSign_natAbs]

/-- Settles O36: a finite value is a whole number of units, so an exact result is a ratio of naturals with a sign, which
`F64.round` rounds to nearest, ties to even (`F64.roundsTo_round`); an integer below `2^53` is its own rounding. -/
theorem binary64OperationsRoundOnce : Obligations.Binary64OperationsRoundOnce :=
  ⟨fun _ hn => ⟨F64.isFinite_ofInt hn, F64.toRat_ofInt hn⟩,
    fun _ _ ha hb => ⟨fadd_roundsTo ha hb, fmul_roundsTo ha hb, fdiv_roundsTo ha hb⟩⟩

end Sys2Proof
end

section
/-! PROOF. A word that decodes to a command is that command's own word (30_encoding.md R71 to R76). -/

namespace Sys2Proof

theorem Opcode.eq_byte_of_ofByte {b : Byte} {op : Opcode} (h : Opcode.ofByte b = some op) : b = op.byte := by
  unfold Opcode.ofByte at h
  split at h <;> cases h <;> exact BitVec.eq_of_toNat_eq ‹_›

/-- Everything a word that decodes to a command has passed. -/
theorem decode_eq_ok {w : CmdWord} {i : Instr} (h : decode w = .ok i) :
    ∃ op : Opcode, opField w = op.byte ∧ rsvField w = 0#8 ∧ op.form.violated (idxField w) (dataField w) = false ∧
      (op.form = .z ∨ (idxField w).toNat < op.limit) ∧ i = op.select (idxField w) (dataField w) := by
  unfold decode at h
  split at h
  · cases h
  · next op hop =>
    split at h
    · cases h
    split at h
    · cases h
    split at h
    · cases h
    · cases h
      refine ⟨op, Opcode.eq_byte_of_ofByte hop, by simp_all, by simp_all, ?_, rfl⟩
      by_cases hz : op.form = .z
      · exact .inl hz
      · exact .inr (by simp_all)

/-- The operand bytes a form drops are zero unless it is violated, so the command's word has every field back. -/
theorem encode_select {op : Opcode} {idx data : Byte} (h : op.form.violated idx data = false) :
    encode (op.select idx data) = commandWord op.byte idx 0#8 data := by
  cases op <;> simp_all [Opcode.form, Form.violated, Opcode.select, encode, Opcode.byte]

theorem encode_of_decode {w : CmdWord} {i : Instr} (h : decode w = .ok i) : encode i = w := by
  obtain ⟨op, hop, hrsv, hform, -, rfl⟩ := decode_eq_ok h
  rw [encode_select hform, ← hop, ← hrsv, commandWord_fields]

end Sys2Proof
end

section
/-! PROOF. What a command can write (10_state.md R20 to R31), once: one constructor per command with a register of its own,
with the checks it has passed. Every rule about what a command leaves unchanged follows from it. -/

namespace Sys2Proof.Machine

/-- The command `i`, its checks passed, turns the state `s` into `u`, before the answer and the recording of its code. -/
inductive Writes : Instr → State → State → Prop where
  | cld {idx data : Byte} {s : State} (h : idx.toNat < 18) :
      Writes (.cld idx data) s { s with cb := s.cb.set idx.toNat data h, cbv := s.cbv.set idx.toNat true h }
  | cdec {s : State} (hcal : s.calValid = false) (hbytes : coefComplete s = true) :
      Writes .cdec s { s with coef := decodeCoeffs s.cb, calValid := true }
  | mld {idx data : Byte} {s : State} (h : idx.toNat < 3) :
      Writes (.mld idx data) s { s with rb := s.rb.set idx.toNat data h, rbv := s.rbv.set idx.toNat true h }
  | cvt {s : State} (hcal : s.calValid = true) (hraw : rawComplete s = true) :
      Writes .cvt s { s with
        tsc := scaleT (raw24 s.rb)
        temp := polyT s.coef.c0.toInt s.coef.c1.toInt (scaleT (raw24 s.rb))
        tscValid := true
        rbv := noRaw }
  | cvp {s : State} (hcal : s.calValid = true) (htsc : s.tscValid = true) (hraw : rawComplete s = true) :
      Writes .cvp s { s with
        psc := scaleP (raw24 s.rb)
        pres := polyP s.coef s.tsc (scaleP (raw24 s.rb))
        prsValid := true
        rbv := noRaw }
  | berr {s : State} : Writes .berr s { s with rbv := noRaw, cbv := if s.calValid then s.cbv else noCoef }
  | rst {s : State} : Writes .rst s (resetRegisters s)

/-- `t` is `u` but for the outputs and the error registers. -/
def Answered (u t : State) : Prop :=
  ∃ answer lastErr firstErr, t = { u with answer := answer, lastErr := lastErr, firstErr := firstErr }

theorem answered_of_raise {e : ErrorCode} {u t : State} (h : raise e u = .next t) : Answered u t :=
  ⟨_, _, _, raise_next h⟩

theorem answered_of_succeed {dout : BitVec 64} {u t : State} (h : succeed dout u = .next t) : Answered u t :=
  ⟨_, _, _, succeed_next h⟩

theorem answered_of_succeedUnrecorded {dout : BitVec 64} {u t : State} (h : succeedUnrecorded dout u = .next t) :
    Answered u t :=
  ⟨_, _, _, succeedUnrecorded_next h⟩

/-- Everything a command can do to the registers other than the error registers: nothing, or its own writes. -/
theorem exec_next {i : Instr} {s t : State} (h : exec i s = .next t) :
    Answered s t ∨ ∃ u, Writes i s u ∧ Answered u t := by
  cases i with
  | nop => exact .inl (answered_of_succeed h)
  | cld idx data =>
    obtain ⟨hidx, he⟩ | ⟨-, he⟩ := execCld_cases idx data s <;> rw [exec, he] at h
    · exact .inr ⟨_, .cld hidx, answered_of_succeed h⟩
    · exact .inl (answered_of_raise h)
  | cdec =>
    obtain ⟨-, he⟩ | ⟨-, -, he⟩ | ⟨hcal, hbytes, he⟩ := execCdec_cases s <;> rw [exec, he] at h
    · exact .inl (answered_of_raise h)
    · exact .inl (answered_of_raise h)
    · exact .inr ⟨_, .cdec hcal hbytes, answered_of_succeed h⟩
  | mld idx data =>
    obtain ⟨hidx, he⟩ | ⟨-, he⟩ := execMld_cases idx data s <;> rw [exec, he] at h
    · exact .inr ⟨_, .mld hidx, answered_of_succeed h⟩
    · exact .inl (answered_of_raise h)
  | cvt =>
    obtain ⟨-, he⟩ | ⟨-, -, he⟩ | ⟨hcal, hraw, he⟩ := execCvt_cases s <;> rw [exec, he] at h
    · exact .inl (answered_of_raise h)
    · exact .inl (answered_of_raise h)
    · exact .inr ⟨_, .cvt hcal hraw, answered_of_succeed h⟩
  | cvp =>
    obtain ⟨-, he⟩ | ⟨-, -, he⟩ | ⟨-, -, -, he⟩ | ⟨hcal, htsc, hraw, he⟩ := execCvp_cases s <;> rw [exec, he] at h
    · exact .inl (answered_of_raise h)
    · exact .inl (answered_of_raise h)
    · exact .inl (answered_of_raise h)
    · exact .inr ⟨_, .cvp hcal htsc hraw, answered_of_succeed h⟩
  | rdc idx =>
    obtain ⟨-, he⟩ | ⟨_, -, -, he⟩ | ⟨_, -, -, he⟩ := execRdc_cases idx s <;> rw [exec, he] at h
    · exact .inl (answered_of_raise h)
    · exact .inl (answered_of_raise h)
    · exact .inl (answered_of_succeed h)
  | rdr idx =>
    obtain ⟨-, he⟩ | ⟨_, -, he⟩ := execRdr_cases idx s <;> rw [exec, he] at h
    · exact .inl (answered_of_raise h)
    · exact .inl (answered_of_succeed h)
  | rds => exact .inl (answered_of_succeedUnrecorded h)
  | berr => exact .inr ⟨_, .berr, answered_of_raise h⟩
  | rst => exact .inr ⟨_, .rst, answered_of_succeed h⟩

theorem perform_of_decode {w : CmdWord} {i : Instr} (h : decode w = .ok i) (s : State) : perform w s = exec i s := by
  simp only [perform, h]

/-- Everything a presented word can do to the registers other than the error registers: nothing, or the writes of the command
whose word it is. -/
theorem step_present_next {w : CmdWord} {s t : State} (h : step (s.present w) = .next t) :
    Answered s t ∨ ∃ i u, encode i = w ∧ Writes i s u ∧ Answered u t := by
  rw [step_present] at h
  cases hd : decode w with
  | error r =>
    simp only [perform, hd] at h
    exact .inl (answered_of_raise h)
  | ok i =>
    rw [perform_of_decode hd] at h
    exact (exec_next h).imp_right fun ⟨u, hu⟩ => ⟨i, u, encode_of_decode hd, hu⟩

/-! ### Each register has its commands -/

section
variable {i : Instr} {s u t : State}

theorem Answered.stream_eq (h : Answered u t) : t.stream = u.stream := by
  obtain ⟨_, _, _, rfl⟩ := h
  rfl

namespace Writes

theorem stream_eq (h : Writes i s u) : u.stream = s.stream := by
  cases h <;> rfl

variable (h : Writes i s u) (hrst : i ≠ .rst)
include h hrst

theorem cld_of_cb_ne (hne : u.cb ≠ s.cb) : ∃ idx data, i = .cld idx data := by
  cases h <;> simp_all

theorem cld_or_berr_of_cbv_ne (hne : u.cbv ≠ s.cbv) :
    (∃ idx data, i = .cld idx data) ∨ (i = .berr ∧ s.calValid = false) := by
  cases h <;> simp_all

theorem cdec_of_coef_ne (hne : u.coef ≠ s.coef ∨ u.calValid ≠ s.calValid) : i = .cdec ∧ s.calValid = false := by
  cases h <;> simp_all

theorem mld_of_rb_ne (hne : u.rb ≠ s.rb) : ∃ idx data, i = .mld idx data := by
  cases h <;> simp_all

theorem mld_or_clears_of_rbv_ne (hne : u.rbv ≠ s.rbv) :
    (∃ idx data, i = .mld idx data) ∨ i ∈ [.cvt, .cvp, .berr] := by
  cases h <;> simp_all

theorem cvt_of_temperature_ne (hne : u.tsc ≠ s.tsc ∨ u.temp ≠ s.temp ∨ u.tscValid ≠ s.tscValid) : i = .cvt := by
  cases h <;> simp_all

theorem cvp_of_pressure_ne (hne : u.psc ≠ s.psc ∨ u.pres ≠ s.pres ∨ u.prsValid ≠ s.prsValid) : i = .cvp := by
  cases h <;> simp_all

end Writes

/-- The legal `RDS` word records nothing (60_exceptions.md R203). -/
theorem rds_keeps_errors (h : step (s.present 0x08000000#32) = .next t) :
    t.lastErr = s.lastErr ∧ t.firstErr = s.firstErr := by
  have hd : decode 0x08000000#32 = .ok .rds := by decide
  rw [step_present, perform_of_decode hd] at h
  rw [succeedUnrecorded_next h]
  exact ⟨rfl, rfl⟩

end

/-- Settles O14: a register other than the error registers changes only by the writes of a command (`step_present_next`), and
no command but the named ones writes it (the lemmas of `Writes`); `RDS` leaves the error registers. -/
theorem registersWrittenOnlyByTheirCommands : Obligations.RegistersWrittenOnlyByTheirCommands := by
  intro s t w h hw
  have herr : t.lastErr ≠ s.lastErr ∨ t.firstErr ≠ s.firstErr → w ≠ 0x08000000#32 := by
    rintro hne rfl
    obtain ⟨hlast, hfirst⟩ := rds_keeps_errors h
    exact hne.elim (· hlast) (· hfirst)
  obtain ⟨_, _, _, rfl⟩ | ⟨i, u, rfl, hwr, _, _, _, rfl⟩ := step_present_next h
  · simpa using herr
  · have hrst : i ≠ .rst := by
      rintro rfl
      exact hw rfl
    refine ⟨fun hne => ?_, fun hne => ?_, fun hne => ?_, fun hne => ?_, fun hne => ?_, fun hne => ?_, fun hne => ?_,
      herr⟩
    · obtain ⟨idx, data, rfl⟩ := hwr.cld_of_cb_ne hrst hne
      simp [encode]
    · obtain ⟨idx, data, rfl⟩ | ⟨rfl, hcal⟩ := hwr.cld_or_berr_of_cbv_ne hrst hne
      · simp [encode]
      · exact .inr ⟨rfl, hcal⟩
    · obtain ⟨rfl, hcal⟩ := hwr.cdec_of_coef_ne hrst hne
      exact ⟨rfl, hcal⟩
    · obtain ⟨idx, data, rfl⟩ := hwr.mld_of_rb_ne hrst hne
      simp [encode]
    · obtain ⟨idx, data, rfl⟩ | hmem := hwr.mld_or_clears_of_rbv_ne hrst hne
      · simp [encode]
      · exact .inr (List.mem_map_of_mem (f := encode) hmem)
    · rw [hwr.cvt_of_temperature_ne hrst hne]
      rfl
    · rw [hwr.cvp_of_pressure_ne hrst hne]
      rfl

/-- Settles O15: neither a command's writes nor its answer touches the stream. -/
theorem commandsLeaveTheStream : Obligations.CommandsLeaveTheStream := by
  intro i s t h
  obtain ht | ⟨u, hu, ht⟩ := exec_next h
  · exact ht.stream_eq
  · exact ht.stream_eq.trans hu.stream_eq

/-- Settles O7: the step performs the word, and performing a word that decodes is the command's meaning. -/
theorem stepRunsTheDecodedCommand : Obligations.StepRunsTheDecodedCommand := by
  intro s w rest i hs hd
  rw [step_command hs, perform_of_decode hd]

end Sys2Proof.Machine
end

section
/-! PROOF. The bits of `STATUS` (10_state.md R32). -/

namespace Sys2Proof.Machine

theorem getLsbD_bitAt (b : Bool) (pos j : Nat) : (bitAt b pos).getLsbD j = (b && decide (j = pos ∧ j < 32)) := by
  cases b
  · simp [bitAt]
  · grind [bitAt]

/-- A run of bits from `pos` up holds the list's entry at its offset, and zeros around it. -/
theorem getLsbD_bitsFrom (bs : List Bool) (pos j : Nat) :
    (bitsFrom bs pos).getLsbD j = (decide (pos ≤ j ∧ j < 32) && bs.getD (j - pos) false) := by
  induction bs generalizing pos with
  | nil => simp [bitsFrom]
  | cons b bs ih =>
    rw [bitsFrom, BitVec.getLsbD_or, getLsbD_bitAt, ih]
    rcases lt_trichotomy j pos with hlt | rfl | hgt
    · simp [hlt.ne, hlt.not_ge, show ¬ pos + 1 ≤ j by omega]
    · simp [Bool.and_comm]
    · rw [show j - pos = j - (pos + 1) + 1 by omega]
      simp [hgt.ne', hgt.le, Nat.succ_le_of_lt hgt]

/-- `STATUS` bit by bit, from the lowest field to the highest. -/
theorem getLsbD_status (s : State) {j : Nat} (hj : j < 32) :
    (status s).getLsbD j =
      if j < 3 then [s.calValid, s.tscValid, s.prsValid].getD j false
      else if j < 6 then s.rbv.toList.getD (j - 3) false
      else if j < 24 then s.cbv.toList.getD (j - 6) false
      else if j < 28 then s.lastErr.getLsbD (j - 24)
      else s.firstErr.getLsbD (j - 28) := by
  simp only [status, BitVec.getLsbD_or, BitVec.getLsbD_shiftLeft, BitVec.getLsbD_setWidth, getLsbD_bitsFrom,
    getLsbD_bitAt, hj]
  split_ifs
  · interval_cases j <;> simp
  · grind
  · grind
  · grind
  · grind

/-- Settles O27: each field of `STATUS` is its run of bits (`getLsbD_status`). -/
theorem statusLayout : Obligations.StatusLayout := by
  intro s
  refine ⟨getLsbD_status s (by decide), getLsbD_status s (by decide), getLsbD_status s (by decide),
    fun k => ?_, fun k => ?_, BitVec.eq_of_getLsbD_eq fun j hj => ?_, BitVec.eq_of_getLsbD_eq fun j hj => ?_⟩
  · rw [getLsbD_status s (by omega)]
    simp (disch := omega) [if_neg, if_pos]
  · rw [getLsbD_status s (by omega)]
    simp (disch := omega) [if_neg, if_pos]
  · rw [BitVec.getLsbD_extractLsb', getLsbD_status s (by omega)]
    simp (disch := omega) [if_neg, if_pos, hj]
  · rw [BitVec.getLsbD_extractLsb', getLsbD_status s (by omega)]
    simp (disch := omega) [if_neg, hj]

end Sys2Proof.Machine
end

section
/-! PROOF. The reset values (10_state.md R33; 70_reset_and_hazards.md R230) and the invariant of the block at reset. -/

namespace Sys2Proof.Machine

/-- Settles O17: the values are those of `State.reset`, to which `rst` (`takeReset`) and the `RST` word (`execRst`) set every
register. -/
theorem resetSetsEveryRegister : Obligations.ResetSetsEveryRegister := by
  refine ⟨by decide, fun s rest hs => ⟨_, step_rst hs, rfl, rfl⟩, fun s => ?_⟩
  have hd : decode 0x0A000000#32 = .ok .rst := by decide
  rw [step_present, perform_of_decode hd]
  exact ⟨_, rfl, rfl, rfl⟩

/-- Settles O47: no register of `State.reset` is valid, the coefficients and results are zero and no code is recorded. -/
theorem invariantAtReset : Obligations.InvariantAtReset where
  lastErr_le := by decide
  firstErr_le := by decide
  no_error _ := rfl
  calibrated h := absurd h Bool.false_ne_true
  uncalibrated _ := ⟨rfl, rfl⟩
  no_temperature _ := ⟨rfl, rfl, rfl⟩
  temperature h := absurd h Bool.false_ne_true
  no_pressure _ := ⟨rfl, rfl⟩
  pressure h := absurd h Bool.false_ne_true

end Sys2Proof.Machine
end

section
/-! PROOF. The rows of the opcode map and the decoder (30_encoding.md R74 to R78): a word matches the row of its opcode byte
unless a must-be-zero field is nonzero, and `decode` of a word that matches a row is that row's command or a bad index. -/

namespace Sys2Proof

/-! ### The opcode byte -/

theorem Opcode.ten_lt_of_ofByte_eq_none {b : Byte} (h : Opcode.ofByte b = none) : 10 < b.toNat := by
  unfold Opcode.ofByte at h
  split at h <;> simp_all
  omega

theorem Opcode.eq_byte_or_ten_lt (b : Byte) : (∃ op : Opcode, b = op.byte) ∨ 10 < b.toNat := by
  cases h : Opcode.ofByte b with
  | some op => exact .inl ⟨op, Opcode.eq_byte_of_ofByte h⟩
  | none => exact .inr (Opcode.ten_lt_of_ofByte_eq_none h)

@[simp] theorem Opcode.ofByte_byte (op : Opcode) : Opcode.ofByte op.byte = some op := by
  cases op <;> rfl

theorem Opcode.byte_inj {p q : Opcode} (h : p.byte = q.byte) : p = q := by
  simpa using congrArg Opcode.ofByte h

theorem Opcode.byte_toNat_le (op : Opcode) : op.byte.toNat ≤ 10 := by
  cases op <;> decide

theorem Opcode.form_eq_z_iff (op : Opcode) : op.form = .z ↔ op.byte.toNat ∈ [0, 2, 4, 5, 8, 9, 10] := by
  cases op <;> decide

theorem Opcode.form_eq_i_iff (op : Opcode) : op.form = .i ↔ op.byte.toNat ∈ [6, 7] := by
  cases op <;> decide

theorem Form.violated_iff {f : Form} {idx data : Byte} : f.violated idx data = true ↔
    (f = .z ∧ (idx ≠ 0#8 ∨ data ≠ 0#8)) ∨ (f = .i ∧ data ≠ 0#8) := by
  cases f <;> simp [Form.violated]

/-! ### The rows -/

/-- The mask of a row, field by field: it covers every byte but the operands of the row's form. -/
def Form.mask : Form → CmdWord
  | .z => commandWord (BitVec.allOnes 8) (BitVec.allOnes 8) (BitVec.allOnes 8) (BitVec.allOnes 8)
  | .i => commandWord (BitVec.allOnes 8) 0#8 (BitVec.allOnes 8) (BitVec.allOnes 8)
  | .id => commandWord (BitVec.allOnes 8) 0#8 (BitVec.allOnes 8) 0#8

theorem Opcode.rowMask_eq (op : Opcode) : op.rowMask = op.form.mask := by
  cases op <;> decide

theorem Opcode.rowMatch_eq (op : Opcode) : op.rowMatch = commandWord op.byte 0#8 0#8 0#8 := by
  cases op <;> decide

theorem commandWord_inj {op idx rsv data op' idx' rsv' data' : Byte} :
    commandWord op idx rsv data = commandWord op' idx' rsv' data' ↔
      op = op' ∧ idx = idx' ∧ rsv = rsv' ∧ data = data' := by
  refine ⟨fun h => ⟨?_, ?_, ?_, ?_⟩, by rintro ⟨rfl, rfl, rfl, rfl⟩; rfl⟩
  · simpa using congrArg opField h
  · simpa using congrArg idxField h
  · simpa using congrArg rsvField h
  · simpa using congrArg dataField h

theorem Opcode.matchesWord_iff {op : Opcode} {w : CmdWord} : op.matchesWord w = true ↔
    opField w = op.byte ∧ rsvField w = 0#8 ∧ op.form.violated (idxField w) (dataField w) = false := by
  rw [Opcode.matchesWord, beq_iff_eq, Opcode.rowMask_eq, Opcode.rowMatch_eq]
  nth_rw 1 [← commandWord_fields w]
  cases op.form <;>
    simp only [Form.mask, commandWord_and, commandWord_inj, BitVec.and_allOnes, BitVec.and_zero] <;>
    simp [Form.violated, and_assoc, and_comm, and_left_comm]

/-- Only the row of the word's own opcode byte can match it. -/
theorem Opcode.forall_matchesWord_eq_false_iff {op : Opcode} {w : CmdWord} (hop : opField w = op.byte) :
    (∀ p : Opcode, p.matchesWord w = false) ↔
      rsvField w ≠ 0#8 ∨ op.form.violated (idxField w) (dataField w) = true := by
  have hown : op.matchesWord w = false ↔ rsvField w ≠ 0#8 ∨ op.form.violated (idxField w) (dataField w) = true := by
    rw [Bool.eq_false_iff, ne_eq, Opcode.matchesWord_iff]
    simp [hop, imp_iff_not_or]
  rw [← hown]
  refine ⟨fun h => h op, fun h p => Bool.eq_false_iff.mpr fun hp => Bool.eq_false_iff.mp h ?_⟩
  have hpop : p = op := Opcode.byte_inj ((Opcode.matchesWord_iff.mp hp).1.symm.trans hop)
  rwa [← hpop]

/-- 30_encoding.md R75: the words that match no row. -/
theorem Opcode.forall_matchesWord_eq_false_iff_fields (w : CmdWord) :
    (∀ p : Opcode, p.matchesWord w = false) ↔
      (10 < (opField w).toNat ∨ rsvField w ≠ 0#8 ∨
        ((opField w).toNat ∈ [0, 2, 4, 5, 8, 9, 10] ∧ (idxField w ≠ 0#8 ∨ dataField w ≠ 0#8)) ∨
        ((opField w).toNat ∈ [6, 7] ∧ dataField w ≠ 0#8)) := by
  obtain ⟨op, hop⟩ | h10 := Opcode.eq_byte_or_ten_lt (opField w)
  · rw [Opcode.forall_matchesWord_eq_false_iff hop, hop, or_iff_right op.byte_toNat_le.not_gt, Form.violated_iff,
      op.form_eq_z_iff, op.form_eq_i_iff]
  · refine iff_of_true (fun p => Bool.eq_false_iff.mpr fun hp => ?_) (.inl h10)
    rw [(Opcode.matchesWord_iff.mp hp).1] at h10
    exact h10.not_ge p.byte_toNat_le

/-! ### The decoder, row by row -/

section
variable {w : CmdWord}

theorem decode_of_no_row (h : ∀ p : Opcode, p.matchesWord w = false) : decode w = .error .illegalCmd := by
  cases hb : Opcode.ofByte (opField w) with
  | none => simp only [decode, hb]
  | some op =>
    have hbad := (Opcode.forall_matchesWord_eq_false_iff (Opcode.eq_byte_of_ofByte hb)).mp h
    by_cases hrsv : rsvField w = 0#8
    · simp [decode, hb, hbad.resolve_left (not_not_intro hrsv)]
    · simp [decode, hb, hrsv]

variable {op : Opcode}

/-- The one check left to a word that matches a row is that of its index (30_encoding.md R76). -/
theorem decode_of_row (h : op.matchesWord w = true) : decode w =
    if op.form ≠ .z ∧ op.limit ≤ (idxField w).toNat then .error .badIndex
    else .ok (op.select (idxField w) (dataField w)) := by
  obtain ⟨hop, hrsv, hform⟩ := Opcode.matchesWord_iff.mp h
  simp [decode, hop, hrsv, hform]

theorem decode_of_indexed_row (h : op.matchesWord w = true) (hz : op.form ≠ .z) : decode w =
    if op.limit ≤ (idxField w).toNat then .error .badIndex else .ok (op.select (idxField w) (dataField w)) := by
  rw [decode_of_row h]
  simp [hz]

theorem decode_of_unindexed_row (h : op.matchesWord w = true) (hz : op.form = .z) :
    decode w = .ok (op.select (idxField w) (dataField w)) := by
  rw [decode_of_row h]
  simp [hz]

theorem decode_eq_illegalCmd_iff :
    decode w = .error .illegalCmd ↔ ∀ p : Opcode, p.matchesWord w = false := by
  refine ⟨fun h p => Bool.eq_false_iff.mpr fun hp => ?_, decode_of_no_row⟩
  rw [decode_of_row hp] at h
  split at h <;> cases h

end

/-- Settles O6: each word is one closed evaluation of the decoder. -/
theorem specExampleWordsDecode : Obligations.SpecExampleWordsDecode := by
  unfold Obligations.SpecExampleWordsDecode
  decide

end Sys2Proof
end

section
/-! PROOF. What the step answers to a word the decoder rejects, and what a command's meaning answers to an index past its
limit (30_encoding.md R75, R76; log entry 7). -/

namespace Sys2Proof.Machine

theorem step_present_fails {w : CmdWord} {r : Reject} (h : decode w = .error r) (s : State) :
    Fails (step (s.present w)) (rejectCode r).code s := by
  rw [step_present, perform, h]
  exact raise_fails (rejectCode r) s

/-- Settles O4: a row matches by its opcode byte and must-be-zero fields, and a word the decoder rejects is answered by a
raise, which changes the error registers alone. -/
theorem illegalWordsMatchNoRow : Obligations.IllegalWordsMatchNoRow := fun w s =>
  ⟨decode_eq_illegalCmd_iff, Opcode.forall_matchesWord_eq_false_iff_fields w,
    fun h => step_present_fails (decode_of_no_row h) s⟩

/-- Settles O5: a word with a field out of its row is illegal (the list of R75), and every other word is in a row, whose one
check is the index. -/
theorem decodeChecksInOrder : Obligations.DecodeChecksInOrder := by
  intro w s
  have hillegal h := decode_of_no_row ((Opcode.forall_matchesWord_eq_false_iff_fields w).mpr h)
  refine ⟨fun h => hillegal (.inl h), fun h => hillegal (.inr (.inl h)),
    fun hop h => hillegal (.inr (.inr (.inl ⟨hop, h⟩))), fun hop h => hillegal (.inr (.inr (.inr ⟨hop, h⟩))),
    fun hrsv hop => ?cld, fun hrsv hop => ?mld, fun hrsv hdata hop => ?rdc, fun hrsv hdata hop => ?rdr,
    fun hrsv hidx hdata => ?unindexed,
    fun h => step_present_fails h s, fun h => step_present_fails h s, fun i h => perform_of_decode h s⟩
  case cld => exact decode_of_indexed_row (Opcode.matchesWord_iff (op := .cld) |>.mpr ⟨hop, hrsv, rfl⟩) (by decide)
  case mld => exact decode_of_indexed_row (Opcode.matchesWord_iff (op := .mld) |>.mpr ⟨hop, hrsv, rfl⟩) (by decide)
  case rdc =>
    have hform : Opcode.rdc.form.violated (idxField w) (dataField w) = false := by simp [Opcode.form, Form.violated, hdata]
    exact decode_of_indexed_row (Opcode.matchesWord_iff.mpr ⟨hop, hrsv, hform⟩) (by decide)
  case rdr =>
    have hform : Opcode.rdr.form.violated (idxField w) (dataField w) = false := by simp [Opcode.form, Form.violated, hdata]
    exact decode_of_indexed_row (Opcode.matchesWord_iff.mpr ⟨hop, hrsv, hform⟩) (by decide)
  case unindexed =>
    have hz {op : Opcode} (hf : op.form = .z) (hop : opField w = op.byte) :
        decode w = .ok (op.select (idxField w) (dataField w)) := by
      have hform : op.form.violated (idxField w) (dataField w) = false := by simp [hf, Form.violated, hidx, hdata]
      exact decode_of_unindexed_row (Opcode.matchesWord_iff.mpr ⟨hop, hrsv, hform⟩) hf
    exact ⟨hz (op := .nop) rfl, hz (op := .cdec) rfl, hz (op := .cvt) rfl, hz (op := .cvp) rfl, hz (op := .rds) rfl,
      hz (op := .berr) rfl, hz (op := .rst) rfl⟩

theorem coefAt_eq_none {n : Nat} (h : 9 ≤ n) (c : Coeffs) : coefAt c n = none := by
  rw [← Option.isNone_iff_eq_none, ← Option.not_isSome, coefAt_isSome]
  simpa using h

theorem resultAt_eq_none {n : Nat} (h : 4 ≤ n) (s : State) : resultAt s n = none := by
  rw [← Option.isNone_iff_eq_none, ← Option.not_isSome, resultAt_isSome]
  simpa using h

theorem exec_of_not_wellFormed {i : Instr} (h : i.wellFormed = false) (s : State) : exec i s = raise .badIndex s := by
  cases i with
  | cld idx data =>
    have hidx : ¬ idx.toNat < 18 := of_decide_eq_false h
    exact ((execCld_cases idx data s).resolve_left fun ⟨hlt, _⟩ => hidx hlt).2
  | mld idx data =>
    have hidx : ¬ idx.toNat < 3 := of_decide_eq_false h
    exact ((execMld_cases idx data s).resolve_left fun ⟨hlt, _⟩ => hidx hlt).2
  | rdc idx =>
    have hidx : ¬ idx.toNat < 9 := of_decide_eq_false h
    rw [exec, execRdc, coefAt_eq_none (not_lt.mp hidx)]
  | rdr idx =>
    have hidx : ¬ idx.toNat < 4 := of_decide_eq_false h
    rw [exec, execRdr, resultAt_eq_none (not_lt.mp hidx)]
  | nop | cdec | cvt | cvp | rds | berr | rst => cases h

/-- Settles O16: each of the four indexed commands raises `BAD_INDEX` in the state before it. -/
theorem indexPastLimitAnswersBadIndex : Obligations.IndexPastLimitAnswersBadIndex := by
  intro s i h
  rw [exec_of_not_wellFormed h]
  exact raise_fails .badIndex s

end Sys2Proof.Machine
end

section
/-! PROOF. The fields of the coefficient bytes (40_decoder.md R110 to R122): shifting and OR-ing assembles the concatenation of
a field's source parts, and the encoder takes the same parts out again. -/

namespace Sys2Proof.Machine

/-! ### Assembling a field -/

/-- A register given a pattern of its own width holds the pattern. -/
theorem coefficient_toNat {w : Nat} (v : BitVec w) : coefficient w v.toNat = v := by
  rw [coefficient_eq_ofNat v.isLt, BitVec.ofNat_toNat, BitVec.setWidth_eq]

theorem twos_toNat {w : Nat} (v : BitVec w) : twos v.toNat w = v.toInt := by
  rw [twos_eq_toInt v.isLt, BitVec.ofNat_toNat, BitVec.setWidth_eq]

theorem toNat_highNibble (b : Byte) : (b.extractLsb' 4 4).toNat = b.toNat >>> 4 := by
  rw [BitVec.extractLsb'_toNat, Nat.shiftRight_eq_div_pow, Nat.mod_eq_of_lt (by omega)]

theorem toNat_lowNibble (b : Byte) : (b.extractLsb' 0 4).toNat = b.toNat &&& 0x0F := by
  rw [BitVec.extractLsb'_toNat, Nat.shiftRight_zero, ← Nat.and_two_pow_sub_one_eq_mod]

/-- Each decoded coefficient is the concatenation of its source bytes and nibbles (40_decoder.md R110 to R118). -/
theorem decodeCoeffs_eq_append (b : Vector Byte 18) : decodeCoeffs b =
    { c0 := b[0] ++ b[1].extractLsb' 4 4
      c1 := b[1].extractLsb' 0 4 ++ b[2]
      c00 := b[3] ++ b[4] ++ b[5].extractLsb' 4 4
      c10 := b[5].extractLsb' 0 4 ++ b[6] ++ b[7]
      c01 := b[8] ++ b[9]
      c11 := b[10] ++ b[11]
      c20 := b[12] ++ b[13]
      c21 := b[14] ++ b[15]
      c30 := b[16] ++ b[17] } := by
  rw [decodeCoeffs, Coeffs.mk.injEq]
  refine ⟨?_, ?_, ?_, ?_, ?_, ?_, ?_, ?_, ?_⟩
  all_goals
    rw [← coefficient_toNat (_ ++ _)]
    simp only [BitVec.toNat_append, toNat_highNibble, toNat_lowNibble, Nat.shiftLeft_or_distrib, ← Nat.shiftLeft_add]

/-- The ranges of 40_decoder.md R120 are those of the registers' widths. -/
theorem Coeffs.inRange (c : Coeffs) : c.InRange := by
  have range {w : Nat} (v : BitVec (w + 1)) : -(2 ^ w) ≤ v.toInt ∧ v.toInt ≤ 2 ^ w - 1 :=
    ⟨v.le_toInt, Int.le_sub_one_of_lt v.toInt_lt⟩
  simp only [Coeffs.InRange, List.forall_mem_cons, List.not_mem_nil, false_implies, implies_true, and_true]
  exact ⟨⟨range c.c0, range c.c1⟩, ⟨range c.c00, range c.c10⟩,
    ⟨range c.c01, range c.c11, range c.c20, range c.c21, range c.c30⟩⟩

/-- Settles O32: the patterns are `decodeCoeffs_eq_append`, and a register's value is the sign correction of its pattern. -/
theorem coefficientFieldLayouts : Obligations.CoefficientFieldLayouts := by
  intro b
  simp only [twos_toNat, decodeCoeffs_eq_append, Coeffs.inRange, and_self]

/-! ### Taking it apart -/

theorem highNibble_append (x y : BitVec 4) : (x ++ y : Byte).extractLsb' 4 4 = x :=
  BitVec.extractLsb'_append_eq_left

theorem lowNibble_append (x y : BitVec 4) : (x ++ y : Byte).extractLsb' 0 4 = y :=
  BitVec.extractLsb'_append_eq_right

/-- The parts the encoder takes from a register are adjacent, so together they are the whole pattern. -/
theorem decodeCoeffs_encodeCoeffs (c : Coeffs) : decodeCoeffs (encodeCoeffs c) = c := by
  rw [decodeCoeffs_eq_append]
  cases c
  rw [Coeffs.mk.injEq]
  refine ⟨?_, ?_, ?_, ?_, ?_, ?_, ?_, ?_, ?_⟩
  all_goals
    simp only [encodeCoeffs, Vector.getElem_mk, List.getElem_toArray, List.getElem_cons_zero, List.getElem_cons_succ,
      highNibble_append, lowNibble_append]
    repeat rw [BitVec.extractLsb'_append_extractLsb'_eq_extractLsb' (by rfl)]
    exact BitVec.extractLsb'_eq_self

/-- Each byte lies inside one field, or its two nibbles lie at the ends of two. -/
theorem encodeCoeffs_decodeCoeffs (b : Vector Byte 18) : encodeCoeffs (decodeCoeffs b) = b := by
  rw [decodeCoeffs_eq_append]
  ext1 i hi
  interval_cases i
  all_goals
    simp (disch := decide) only [encodeCoeffs, Vector.getElem_mk, List.getElem_toArray, List.getElem_cons_zero,
      List.getElem_cons_succ, BitVec.extractLsb'_append_eq_of_le, BitVec.extractLsb'_append_eq_of_add_le, Nat.reduceSub,
      BitVec.extractLsb'_append_extractLsb'_eq_extractLsb', BitVec.extractLsb'_eq_self]

/-- Settles O33: the two compositions are the identity, and every set of coefficients is in range by its widths. -/
theorem coefficientBytesBijection : Obligations.CoefficientBytesBijection :=
  ⟨decodeCoeffs_encodeCoeffs, fun b => ⟨encodeCoeffs_decodeCoeffs b, Coeffs.inRange _⟩⟩

end Sys2Proof.Machine
end

section
/-! PROOF. The commands `CLD` and `CDEC` (40_decoder.md R101 to R103): their words, their effect and their errors. -/

namespace Sys2Proof

/-- A word of an opcode without operands other than the row's one word is illegal (30_encoding.md R75). -/
theorem decode_of_ne_rowMatch {op : Opcode} {w : CmdWord} (hz : op.form = .z) (hop : opField w = op.byte)
    (hw : w ≠ op.rowMatch) : decode w = .error .illegalCmd := by
  rw [decode_eq_illegalCmd_iff, Opcode.forall_matchesWord_eq_false_iff hop, hz]
  by_contra! h
  obtain ⟨hrsv, hform⟩ := h
  obtain ⟨hidx, hdata⟩ : idxField w = 0#8 ∧ dataField w = 0#8 := by simpa [Form.violated] using hform
  rw [← commandWord_fields w, Opcode.rowMatch_eq, hop, hidx, hrsv, hdata] at hw
  exact hw rfl

theorem decode_of_rsvField_ne_zero {w : CmdWord} (h : rsvField w ≠ 0#8) : decode w = .error .illegalCmd :=
  decode_of_no_row ((Opcode.forall_matchesWord_eq_false_iff_fields w).mpr (.inr (.inl h)))

theorem decode_encode_cld (idx data : Byte) :
    decode (encode (.cld idx data)) = if 18 ≤ idx.toNat then .error .badIndex else .ok (.cld idx data) := by
  rw [decode_of_indexed_row (op := .cld) (Laws.EncodedRow.cld idx data).1 (by decide)]
  simp [encode, Opcode.limit, Opcode.select]

theorem decode_encode_cld_of_lt {idx : Byte} (h : idx.toNat < 18) (data : Byte) :
    decode (encode (.cld idx data)) = .ok (.cld idx data) := by
  rw [decode_encode_cld, if_neg h.not_ge]

theorem decode_encode_cdec : decode (encode .cdec) = .ok .cdec := by decide

end Sys2Proof

namespace Sys2Proof.Machine

theorem coefComplete_iff {s : State} : coefComplete s = true ↔ ∀ k : Fin 18, s.cbv[k] = true :=
  allSet_toList s.cbv

theorem exec_cld_of_lt {idx : Byte} (h : idx.toNat < 18) (data : Byte) (s : State) : exec (.cld idx data) s =
    succeed 0#64 { s with cb := s.cb.set idx.toNat data h, cbv := s.cbv.set idx.toNat true h } :=
  dif_pos h

theorem exec_cdec_of_calValid {s : State} (h : s.calValid = true) : exec .cdec s = raise .calLocked s :=
  if_pos h

theorem exec_cdec_of_incomplete {s : State} (hcal : s.calValid = false) (h : coefComplete s = false) :
    exec .cdec s = raise .coefIncomplete s := by
  simp [exec, execCdec, hcal, h]

theorem exec_cdec_of_complete {s : State} (hcal : s.calValid = false) (h : coefComplete s = true) :
    exec .cdec s = succeed 0#64 { s with coef := decodeCoeffs s.cb, calValid := true } := by
  simp [exec, execCdec, hcal, h]

/-- Settles O19: below the limit `CLD` sets one entry of each vector; the errors are the decoder's rejections. -/
theorem cldLoadsOneCoefficientByte : Obligations.CldLoadsOneCoefficientByte := by
  intro s idx rsv data
  refine ⟨fun hidx => ⟨decode_encode_cld_of_lt hidx data, _, exec_cld_of_lt hidx data s, rfl, rfl, fun k => ?_⟩,
    fun hrsv => ?_, fun hidx => ?_⟩
  · simp [Vector.getElem_set, eq_comm]
  · exact step_present_fails (decode_of_rsvField_ne_zero (by simpa using hrsv)) s
  · have hd := decode_encode_cld idx data
    rw [if_pos hidx] at hd
    exact step_present_fails hd s

/-- Settles O20: one equation of `CDEC` for each of R103's cases, of which a success leads to the first; the corner blocks by
the concatenations that `decodeCoeffs` is. -/
theorem cdecDecodesAllNine : Obligations.CdecDecodesAllNine := by
  intro s
  refine ⟨fun hcal => ?locked, fun hcal hmissing => ?incomplete, fun hcal hbytes => ?complete, ?zeros, ?ones,
    decode_encode_cdec, fun w hop hw => ?illegal⟩
  case locked =>
    rw [exec_cdec_of_calValid hcal]
    exact raise_fails .calLocked s
  case incomplete =>
    obtain ⟨k, hk⟩ := hmissing
    have hc : coefComplete s = false := Bool.eq_false_iff.mpr fun hc => by simpa [hk] using coefComplete_iff.mp hc k
    rw [exec_cdec_of_incomplete hcal hc]
    exact raise_fails .coefIncomplete s
  case complete =>
    rw [exec_cdec_of_complete hcal (coefComplete_iff.mpr hbytes)]
    refine ⟨succeed_succeeds _ _, fun t ht => ?_⟩
    have hlocked : t.calValid = true := by rw [succeed_next ht]; rfl
    rw [exec_cdec_of_calValid hlocked]
    exact raise_fails .calLocked t
  case zeros =>
    rw [decodeCoeffs_eq_append]
    decide
  case ones =>
    rw [decodeCoeffs_eq_append]
    decide
  case illegal => exact step_present_fails (decode_of_ne_rowMatch (op := .cdec) rfl hop hw) s

theorem answer_ne_ok_of_raise {e : ErrorCode} {s t : State} {dout : BitVec 64} (h : raise e s = .next t) :
    t.answer ≠ some { resp := 0#4, dout := dout } := by
  rw [raise_next h]
  cases e <;> simp [ErrorCode.code]

/-- A `CDEC` that answers `OK` has set the coefficients from the bytes. -/
theorem coef_of_exec_cdec {s t : State} {dout : BitVec 64} (h : exec .cdec s = .next t)
    (hok : t.answer = some { resp := 0#4, dout := dout }) : t.coef = decodeCoeffs s.cb := by
  obtain ⟨-, he⟩ | ⟨-, -, he⟩ | ⟨-, -, he⟩ := execCdec_cases s <;> rw [exec, he] at h
  · exact absurd hok (answer_ne_ok_of_raise h)
  · exact absurd hok (answer_ne_ok_of_raise h)
  · rw [succeed_next h]
    rfl

/-- Settles O30: each block's coefficients are `decode` of its bytes. -/
theorem decodingDependsOnBytesAlone : Obligations.DecodingDependsOnBytesAlone := by
  intro s s' t t' hcb ht ht' hok hok'
  rw [coef_of_exec_cdec ht hok, coef_of_exec_cdec ht' hok', hcb]

end Sys2Proof.Machine
end

section
/-! PROOF. A run of `CLD` words (40_decoder.md R102, 20_memory.md R55): whatever their order, the registers hold the last byte
loaded to each index. -/

namespace Sys2Proof.Machine

/-- A run that goes on from where a shorter run ended, for any machine. -/
theorem core_run_add (M : Host.Core) {m : Nat} {s t : M.State} (h : M.run m s = .next t) (n : Nat) :
    M.run (m + n) s = M.run n t := by
  induction m generalizing s with
  | zero =>
    cases h
    rw [Nat.zero_add]
  | succ m ih =>
    rw [Nat.succ_add]
    cases hstep : M.step s with
    | next u =>
      rw [core_run_succ M hstep] at h ⊢
      exact ih h
    | fault r => simp [Host.Core.run, hstep] at h
    | refused r => simp [Host.Core.run, hstep] at h

/-- The word of a load. -/
def loadEvent (l : Fin 18 × Byte) : HostEvent := .command (encode (.cld (BitVec.ofNat 8 l.1.val) l.2))

/-- `t` is `s` after the loads: the last byte loaded to each index, and its valid bit; no other register but `LAST_ERR`
differs. -/
structure LoadedBy (loads : List (Fin 18 × Byte)) (s t : State) : Prop where
  cb (k : Fin 18) : t.cb[k] = (loads.reverse.lookup k).getD s.cb[k]
  cbv (k : Fin 18) : t.cbv[k] = ((loads.reverse.lookup k).isSome || s.cbv[k])
  registers : t.registers = { s.registers with cb := t.cb, cbv := t.cbv, lastErr := t.lastErr }

theorem LoadedBy.nil (s : State) : LoadedBy [] s s := ⟨fun _ => rfl, fun _ => rfl, rfl⟩

/-- One load. -/
theorem step_loadEvent {s : State} {l : Fin 18 × Byte} {rest : List HostEvent} (hs : s.stream = loadEvent l :: rest) :
    ∃ t, step s = .next t ∧ LoadedBy [l] s t ∧ t.stream = rest := by
  obtain ⟨i, b⟩ := l
  have hi : (BitVec.ofNat 8 i.val).toNat = i.val := by
    rw [BitVec.toNat_ofNat, Nat.mod_eq_of_lt (by omega)]
  have hlt : (BitVec.ofNat 8 i.val).toNat < 18 := by omega
  rw [step_command hs, perform_of_decode (decode_encode_cld_of_lt hlt b), exec_cld_of_lt hlt]
  refine ⟨_, rfl, ⟨fun k => ?_, fun k => ?_, rfl⟩, rfl⟩
  all_goals
    rcases eq_or_ne k i with rfl | hne
    · simp [hi]
    · simp [hi, List.lookup_cons, beq_false_of_ne hne, Fin.val_ne_of_ne hne.symm]

theorem LoadedBy.append {l₁ l₂ : List (Fin 18 × Byte)} {s t u : State} (h₁ : LoadedBy l₁ s t) (h₂ : LoadedBy l₂ t u) :
    LoadedBy (l₁ ++ l₂) s u where
  cb k := by
    rw [h₂.cb, h₁.cb, List.reverse_append, List.lookup_append]
    cases l₂.reverse.lookup k <;> simp
  cbv k := by
    rw [h₂.cbv, h₁.cbv, List.reverse_append, List.lookup_append]
    cases l₂.reverse.lookup k <;> simp
  registers := by rw [h₂.registers, h₁.registers]

/-- Any list of loads runs to its end, one load after the other. -/
theorem run_loads (loads : List (Fin 18 × Byte)) {s : State} {rest : List HostEvent}
    (hs : s.stream = loads.map loadEvent ++ rest) :
    ∃ t : State, Sys2Proof.core.run loads.length s = .next t ∧ LoadedBy loads s t ∧ t.stream = rest := by
  induction loads generalizing s with
  | nil => exact ⟨s, rfl, .nil s, hs⟩
  | cons l loads ih =>
    obtain ⟨u, hstep, hlu, hu⟩ := step_loadEvent hs
    obtain ⟨t, hrun, hut, ht⟩ := ih hu
    exact ⟨t, (run_succ hstep _).trans hrun, hlu.append hut, ht⟩

/-- Settles O34: the loads leave the given bytes, all valid (`run_loads`), and `CDEC` decodes them. -/
theorem loadOrderDoesNotMatter : Obligations.LoadOrderDoesNotMatter := by
  intro s bytes loads rest hcal hlast hs
  obtain ⟨t, hrun, hloaded, ht⟩ := run_loads loads hs
  have hcb : t.cb = bytes := Vector.ext fun i hi => by
    simpa [hlast ⟨i, hi⟩] using hloaded.cb ⟨i, hi⟩
  have hcbv : t.cbv = Vector.replicate 18 true := Vector.ext fun i hi => by
    simpa [hlast ⟨i, hi⟩] using hloaded.cbv ⟨i, hi⟩
  have htcal : t.calValid = false := (congrArg State.calValid hloaded.registers).trans hcal
  have hstep : step t = succeed 0#64 { t with stream := rest, coef := decodeCoeffs t.cb, calValid := true } := by
    have hbytes : ∀ k : Fin 18, t.cbv[k] = true := by simp [hcbv]
    rw [step_command ht, perform_of_decode decode_encode_cdec]
    exact exec_cdec_of_complete (s := { t with stream := rest }) htcal (coefComplete_iff.mpr hbytes)
  refine ⟨_, (core_run_add _ hrun 1).trans (run_succ hstep 0), rfl, ?_, rfl⟩
  show ({ t.registers with coef := decodeCoeffs t.cb, calValid := true, lastErr := 0#4 } : State) = _
  rw [hloaded.registers, hcb, hcbv]

end Sys2Proof.Machine
end

section
/-! PROOF. What a correctly rounded result keeps of the exact one (00_scope.md R10): bounds that are binary64 values, whole
numbers of units `2^-k`, and the value itself where it has 53 significant bits. -/

namespace Sys2Proof

/-! ### Whole numbers of units `2^-k` -/

/-- `q` is a whole number of units `2^-k`. -/
def OnGrid (k : Nat) (q : Rat) : Prop := ∃ m : Int, q = m / 2 ^ k

theorem onGrid_intCast (n : Int) : OnGrid 0 n := ⟨n, by rw [pow_zero, div_one]⟩

namespace OnGrid

variable {j k : Nat} {p q : Rat}

theorem mono (h : OnGrid j q) (hjk : j ≤ k) : OnGrid k q := by
  obtain ⟨m, rfl⟩ := h
  refine ⟨m * 2 ^ (k - j), ?_⟩
  rw [Int.cast_mul, Int.cast_pow, Int.cast_ofNat, div_eq_div_iff (by positivity) (by positivity), mul_assoc, ← pow_add,
    Nat.sub_add_cancel hjk]

theorem add (hp : OnGrid k p) (hq : OnGrid k q) : OnGrid k (p + q) := by
  obtain ⟨m, rfl⟩ := hp
  obtain ⟨n, rfl⟩ := hq
  exact ⟨m + n, by rw [Int.cast_add, add_div]⟩

theorem mul (hp : OnGrid j p) (hq : OnGrid k q) : OnGrid (j + k) (p * q) := by
  obtain ⟨m, rfl⟩ := hp
  obtain ⟨n, rfl⟩ := hq
  exact ⟨m * n, by rw [Int.cast_mul, div_mul_div_comm, pow_add]⟩

theorem one_div_le_abs (h : OnGrid k q) (h0 : q ≠ 0) : 1 / 2 ^ k ≤ |q| := by
  obtain ⟨m, rfl⟩ := h
  have hm : m ≠ 0 := by
    rintro rfl
    simp at h0
  rw [abs_div, abs_of_pos (show (0 : Rat) < 2 ^ k by positivity)]
  exact div_le_div_of_nonneg_right (by exact_mod_cast Int.one_le_abs hm) (by positivity)

end OnGrid

/-! ### The binary64 values among them -/

theorem natCast_le_of_lt {n : Nat} (h : n < 2 ^ 53) : (n : Rat) ≤ 2 ^ 53 - 1 := by
  rw [le_sub_iff_add_le]
  exact_mod_cast h

theorem natCast_le_maxFinite {n : Nat} (h : n < 2 ^ 53) : (n : Rat) ≤ Machine.maxFinite :=
  (natCast_le_of_lt h).trans (le_mul_of_one_le_right (by norm_num) (one_le_pow₀ one_le_two))

namespace F64

theorem unitScale_eq_mul {k : Nat} (hk : k ≤ 1074) : (unitScale : Rat) = 2 ^ (1074 - k) * 2 ^ k := by
  rw [unitScale, Nat.cast_pow, Nat.cast_ofNat, ← pow_add, Nat.sub_add_cancel hk]

theorem onGrid_toRat (x : F64) : OnGrid 1074 x.toRat :=
  ⟨x.units, by rw [toRat, unitScale, Nat.cast_pow, Nat.cast_ofNat]⟩

/-- 53 significant bits are enough for a binary64 value. -/
theorem exists_toRat_eq {m : Int} {k : Nat} (hm : |m| < 2 ^ 53) (hk : k ≤ 1074) :
    ∃ g : F64, g.isFinite = true ∧ g.toRat = m / 2 ^ k := by
  have hm' := natAbs_lt_two_pow hm
  have hr : InFiniteRange (m.natAbs * 2 ^ (1074 - k)) 1 := ⟨one_pos, by
    rw [Nat.cast_one, div_one, Nat.cast_mul, Nat.cast_pow, Nat.cast_ofNat]
    have hpow : (2 : Rat) ^ (1074 - k) ≤ 2 ^ maxLastPlace := pow_le_pow_right₀ one_le_two (by unfold maxLastPlace; omega)
    exact mul_le_mul (natCast_le_of_lt hm') hpow (by positivity) (by norm_num)⟩
  refine ⟨round (decide (m < 0)) (m.natAbs * 2 ^ (1074 - k)) 1, isFinite_round _ hr, ?_⟩
  rw [toRat_eq, sign_round _ hr, magnitude_round_of_eq _ hr hm' (mul_one _).symm, unitScale_eq_mul hk, Nat.cast_mul,
    Nat.cast_pow, Nat.cast_ofNat, mul_comm, mul_div_mul_left _ _ (by positivity), ← withSign_div, withSign_natAbs]

/-- The last place of a value of at least `2^52` units `2^-k` is no smaller than the unit. -/
theorem onGrid_of_two_pow_le {x : F64} {k : Nat} (hk : k ≤ 1074) (h : 2 ^ 52 / 2 ^ k ≤ |x.toRat|) : OnGrid k x.toRat := by
  obtain ⟨v, hv, hplaces⟩ := exists_int_withSign_units false x (1074 - k)
  rw [withSign_false] at hv
  rw [toRat, hv, unitScale_eq_mul hk] at h ⊢
  rcases hplaces with ⟨m, rfl⟩ | hlt
  · exact ⟨m, by rw [Int.cast_mul, Int.cast_pow, Int.cast_ofNat, mul_div_mul_left _ _ (by positivity)]⟩
  · have hlt' : |(v : Rat)| < 2 ^ 52 * 2 ^ (1074 - k) := by
      rw [← pow_add]
      exact_mod_cast hlt
    rw [abs_div, abs_of_pos (show (0 : Rat) < 2 ^ (1074 - k) * 2 ^ k by positivity), ← div_div,
      div_le_div_iff_of_pos_right (by positivity), le_div_iff₀ (by positivity)] at h
    exact absurd hlt' h.not_gt

end F64

/-! ### The rounded result -/

namespace Machine.RoundsTo

variable {x y : Rat} {f g : F64} {m : Int} {k : Nat}

theorem toRat_le (h : RoundsTo x f) (hg : g.isFinite = true) (hx : x ≤ g.toRat) : f.toRat ≤ g.toRat := by
  by_contra! hlt
  have hnear := (h.2 g hg).1
  rw [abs_of_nonneg (by linarith), abs_of_nonneg (by linarith)] at hnear
  linarith

theorem le_toRat (h : RoundsTo x f) (hg : g.isFinite = true) (hx : g.toRat ≤ x) : g.toRat ≤ f.toRat := by
  by_contra! hlt
  have hnear := (h.2 g hg).1
  rw [abs_of_nonpos (by linarith), abs_of_nonpos (by linarith)] at hnear
  linarith

theorem toRat_eq_toRat (h : RoundsTo g.toRat f) (hg : g.isFinite = true) : f.toRat = g.toRat :=
  le_antisymm (h.toRat_le hg le_rfl) (h.le_toRat hg le_rfl)

/-- Rounding keeps the order: results in the wrong order would each be nearer to the other's exact value. -/
theorem toRat_mono (hf : RoundsTo x f) (hg : RoundsTo y g) (hxy : x < y) : f.toRat ≤ g.toRat := by
  by_contra! hlt
  have hx := sq_le_sq.mpr (hf.2 g hg.1).1
  have hy := sq_le_sq.mpr (hg.2 f hf.1).1
  linarith [mul_pos (sub_pos.mpr hlt) (sub_pos.mpr hxy)]

theorem toRat_le_div (h : RoundsTo x f) (hm : |m| < 2 ^ 53) (hk : k ≤ 1074) (hx : x ≤ m / 2 ^ k) :
    f.toRat ≤ m / 2 ^ k := by
  obtain ⟨g, hg, hgm⟩ := F64.exists_toRat_eq hm hk
  rw [← hgm] at hx ⊢
  exact h.toRat_le hg hx

theorem div_le_toRat (h : RoundsTo x f) (hm : |m| < 2 ^ 53) (hk : k ≤ 1074) (hx : m / 2 ^ k ≤ x) :
    m / 2 ^ k ≤ f.toRat := by
  obtain ⟨g, hg, hgm⟩ := F64.exists_toRat_eq hm hk
  rw [← hgm] at hx ⊢
  exact h.le_toRat hg hx

theorem abs_le_div (h : RoundsTo x f) (hm : |m| < 2 ^ 53) (hk : k ≤ 1074) (hx : |x| ≤ m / 2 ^ k) :
    |f.toRat| ≤ m / 2 ^ k := by
  obtain ⟨hlo, hhi⟩ := abs_le.mp hx
  have hlo' := h.div_le_toRat (m := -m) (by rwa [abs_neg]) hk (by rwa [Int.cast_neg, neg_div])
  rw [Int.cast_neg, neg_div] at hlo'
  exact abs_le.mpr ⟨hlo', h.toRat_le_div hm hk hhi⟩

theorem div_le_abs (h : RoundsTo x f) (hm : |m| < 2 ^ 53) (hk : k ≤ 1074) (hx : m / 2 ^ k ≤ |x|) :
    m / 2 ^ k ≤ |f.toRat| := by
  rcases le_abs'.mp hx with hneg | hpos
  · have hneg' := h.toRat_le_div (m := -m) (by rwa [abs_neg]) hk (by rwa [Int.cast_neg, neg_div])
    rw [Int.cast_neg, neg_div] at hneg'
    exact le_abs'.mpr (.inl hneg')
  · exact le_abs'.mpr (.inr (h.div_le_toRat hm hk hpos))

/-- What a binary64 value is, its rounding is. -/
theorem toRat_eq (h : RoundsTo x f) (hm : |m| < 2 ^ 53) (hk : k ≤ 1074) (hx : x = m / 2 ^ k) : f.toRat = m / 2 ^ k :=
  le_antisymm (h.toRat_le_div hm hk hx.le) (h.div_le_toRat hm hk hx.ge)

/-- Rounding drops units, never parts of one: with at most 53 bits of units nothing is dropped, and with more the last place
is no smaller than the unit. -/
theorem onGrid (h : RoundsTo x f) (hx : OnGrid k x) (hk : k ≤ 1074) : OnGrid k f.toRat := by
  obtain ⟨m, rfl⟩ := hx
  by_cases hm : |m| < 2 ^ 53
  · exact ⟨m, h.toRat_eq hm hk rfl⟩
  · refine F64.onGrid_of_two_pow_le hk ?_
    have hbig : ((2 ^ 52 : Int) : Rat) / 2 ^ k ≤ |(m / 2 ^ k : Rat)| := by
      have hm' : (2 ^ 52 : Int) ≤ |m| := le_trans (by norm_num) (not_lt.mp hm)
      rw [abs_div, abs_of_pos (show (0 : Rat) < 2 ^ k by positivity)]
      exact div_le_div_of_nonneg_right (by exact_mod_cast hm') (by positivity)
    have hle := h.div_le_abs (by decide) hk hbig
    rwa [Int.cast_pow, Int.cast_ofNat] at hle

theorem toRat_ne_zero (h : RoundsTo x f) (hx : OnGrid k x) (hk : k ≤ 1074) (h0 : x ≠ 0) : f.toRat ≠ 0 := by
  have hle := h.div_le_abs (m := 1) (by norm_num) hk (by simpa using hx.one_div_le_abs h0)
  rw [Int.cast_one] at hle
  exact abs_pos.mp ((show (0 : Rat) < 1 / 2 ^ k by positivity).trans_le hle)

end Machine.RoundsTo

end Sys2Proof
end

section
/-! PROOF. The sign of a result, and -0.0 (41_converter.md R162): a finite value other than -0.0 is determined by its real
value. -/

namespace Sys2Proof

/-- The encoding of -0.0. -/
abbrev F64.negZero : F64 := 0x8000000000000000#64

namespace F64

/-! ### The encoding is its fields, and a magnitude has one encoding -/

theorem eq_of_fields {x y : F64} (hs : x.sign = y.sign) (he : x.expField = y.expField) (hf : x.fracField = y.fracField) :
    x = y := by
  have hmsb : x.msb = y.msb := hs
  rw [BitVec.msb_eq_decide, BitVec.msb_eq_decide, decide_eq_decide] at hmsb
  unfold expField at he
  unfold fracField at hf
  apply BitVec.eq_of_toNat_eq
  have hx := x.isLt
  have hy := y.isLt
  omega

theorem fracField_lt (x : F64) : x.fracField < 2 ^ 52 := Nat.mod_lt _ (Nat.two_pow_pos _)

theorem magnitude_lt (x : F64) : x.magnitude < 2 ^ (52 + x.expField) := by
  have hfrac := x.fracField_lt
  unfold magnitude
  split
  · next he => rwa [he]
  · next he =>
    rw [show 52 + x.expField = 53 + (x.expField - 1) by omega, pow_add]
    exact Nat.mul_lt_mul_of_pos_right (by omega) (Nat.two_pow_pos _)

theorem le_magnitude {x : F64} (he : x.expField ≠ 0) : 2 ^ (51 + x.expField) ≤ x.magnitude := by
  rw [magnitude, if_neg he, show 51 + x.expField = 52 + (x.expField - 1) by omega, pow_add]
  exact Nat.mul_le_mul_right _ (Nat.le_add_left _ _)

theorem expField_le_of_magnitude_le {x y : F64} (h : x.magnitude ≤ y.magnitude) : x.expField ≤ y.expField := by
  by_contra! hlt
  have hle := (le_magnitude (Nat.ne_zero_of_lt hlt)).trans_lt (h.trans_lt y.magnitude_lt)
  have := (Nat.pow_lt_pow_iff_right one_lt_two).mp hle
  omega

theorem fields_of_magnitude_eq {x y : F64} (h : x.magnitude = y.magnitude) :
    x.expField = y.expField ∧ x.fracField = y.fracField := by
  have he := le_antisymm (expField_le_of_magnitude_le h.le) (expField_le_of_magnitude_le h.ge)
  refine ⟨he, ?_⟩
  unfold magnitude at h
  rw [← he] at h
  split at h
  · exact h
  · exact Nat.add_right_cancel (Nat.eq_of_mul_eq_mul_right (Nat.two_pow_pos _) h)

/-! ### -0.0 -/

theorem toRat_negZero : negZero.toRat = 0 := toRat_eq_zero (by decide)

theorem magnitude_eq_zero_iff {x : F64} : x.magnitude = 0 ↔ x.toRat = 0 := by
  refine ⟨toRat_eq_zero, fun h => ?_⟩
  rw [toRat, div_eq_zero_iff, or_iff_left unitScale_cast_pos.ne', Int.cast_eq_zero, ← abs_eq_zero, abs_units] at h
  exact_mod_cast h

theorem ne_negZero_iff {x : F64} : x ≠ negZero ↔ (x.sign = true → x.toRat ≠ 0) := by
  refine ⟨fun hne hs h0 => hne ?_, ?_⟩
  · have hmag : x.magnitude = negZero.magnitude := magnitude_eq_zero_iff.mpr h0
    obtain ⟨he, hf⟩ := fields_of_magnitude_eq hmag
    exact eq_of_fields hs he hf
  · rintro h rfl
    exact h rfl toRat_negZero

theorem toRat_nonpos {x : F64} (hs : x.sign = true) : x.toRat ≤ 0 := by
  rw [toRat_eq, hs, withSign_true]
  exact neg_nonpos.mpr (div_nonneg (Nat.cast_nonneg _) unitScale_cast_pos.le)

theorem toRat_nonneg {x : F64} (hs : x.sign = false) : 0 ≤ x.toRat := by
  rw [toRat_eq, hs, withSign_false]
  exact div_nonneg (Nat.cast_nonneg _) unitScale_cast_pos.le

theorem sign_eq_decide {x : F64} (hx : x ≠ negZero) : x.sign = decide (x.toRat < 0) := by
  cases hs : x.sign with
  | true => exact (decide_eq_true ((toRat_nonpos hs).lt_of_ne (ne_negZero_iff.mp hx hs))).symm
  | false => exact (decide_eq_false (toRat_nonneg hs).not_gt).symm

/-- Apart from -0.0, an encoding is determined by its value. -/
theorem eq_of_toRat_eq {x y : F64} (hx : x ≠ negZero) (hy : y ≠ negZero) (h : x.toRat = y.toRat) : x = y := by
  have hs : x.sign = y.sign := by rw [sign_eq_decide hx, sign_eq_decide hy, h]
  have hmag : x.magnitude = y.magnitude := by
    rw [toRat_eq, toRat_eq, hs, ← withSign_div, ← withSign_div, div_left_inj' unitScale_cast_pos.ne'] at h
    simpa using congrArg (withSign y.sign) h
  obtain ⟨he, hf⟩ := fields_of_magnitude_eq hmag
  exact eq_of_fields hs he hf

theorem eq_zero_iff {x : F64} (hx : x ≠ negZero) : x = 0#64 ↔ x.toRat = 0 := by
  have h0 : toRat 0#64 = 0 := toRat_eq_zero (by decide)
  refine ⟨fun h => h ▸ h0, fun h => eq_of_toRat_eq hx (by decide) (h.trans h0.symm)⟩

/-! ### The sign of a result -/

/-- Rounding keeps the sign, even where it overflows. -/
theorem sign_round_eq (neg : Bool) (n d : Nat) : (round neg n d).sign = neg :=
  sign_pack neg ((min_le_right _ _).trans_lt (by decide))

theorem sign_zero (neg : Bool) : (zero neg).sign = neg := sign_pack neg (by decide)

theorem sign_ofInt (n : Int) : (ofInt n).sign = decide (n < 0) := sign_round_eq _ _ _

theorem ofInt_ne_negZero {n : Int} (h : |n| < 2 ^ 53) : ofInt n ≠ negZero := by
  rw [ne_negZero_iff, sign_ofInt, toRat_ofInt h, decide_eq_true_iff]
  exact fun hneg => Int.cast_ne_zero.mpr hneg.ne

end F64

section
variable {x y : F64} (hx : x.isFinite = true) (hy : y.isFinite = true)
include hx hy

theorem sign_fmul : (fmul x y).sign = (x.sign != y.sign) := by
  rw [fmul_of_isFinite hx hy, F64.sign_round_eq]

theorem sign_fdiv (h0 : y.toRat ≠ 0) : (fdiv x y).sign = (x.sign != y.sign) := by
  rw [fdiv_of_isFinite hx hy (F64.magnitude_eq_zero_iff.not.mpr h0), F64.sign_round_eq]

theorem fadd_comm : fadd x y = fadd y x := by
  rw [fadd_of_isFinite hx hy, fadd_of_isFinite hy hx, add_comm x.units, Bool.and_comm]

theorem fmul_comm : fmul x y = fmul y x := by
  rw [fmul_of_isFinite hx hy, fmul_of_isFinite hy hx, mul_comm x.magnitude, bne_comm]

theorem toRat_fmul_eq_zero (h : x.toRat * y.toRat = 0) : (fmul x y).toRat = 0 := by
  have hr : |x.toRat * y.toRat| ≤ Machine.maxFinite := by
    rw [h, abs_zero]
    exact_mod_cast natCast_le_maxFinite (n := 0) (by decide)
  have h0 := (fmul_roundsTo hx hy hr).toRat_eq (m := 0) (k := 0) (by decide) (by decide) (by simp [h])
  simpa using h0

/-- An exact zero sum is -0.0 only when both operands are, and a sum that is not zero does not round to zero. -/
theorem fadd_ne_negZero (hr : |x.toRat + y.toRat| ≤ Machine.maxFinite) (hxz : x ≠ F64.negZero) :
    fadd x y ≠ F64.negZero := by
  rw [F64.ne_negZero_iff]
  intro hs
  by_cases h0 : x.toRat + y.toRat = 0
  · have hunits : x.units + y.units = 0 := by
      rw [F64.toRat, F64.toRat, ← add_div, div_eq_zero_iff, or_iff_left F64.unitScale_cast_pos.ne'] at h0
      exact_mod_cast h0
    rw [fadd_of_isFinite hx hy, if_pos hunits, F64.sign_zero, Bool.and_eq_true] at hs
    have hneg := (F64.toRat_nonpos hs.1).lt_of_ne (F64.ne_negZero_iff.mp hxz hs.1)
    linarith [F64.toRat_nonpos hs.2]
  · exact (fadd_roundsTo hx hy hr).toRat_ne_zero (x.onGrid_toRat.add y.onGrid_toRat) le_rfl h0

end

end Sys2Proof
end

section
/-! PROOF. Operations on bounded whole numbers of units `2^-k`: the exact result is one too, and rounding keeps its bound and its
unit. The argument of 41_converter.md R160, with a unit in the place of a lower bound. -/

namespace Sys2Proof

/-- `x` is finite, a whole number of units `2^-k`, and at most `B` in magnitude. -/
structure F64.Within (k : Nat) (B : Rat) (x : F64) : Prop where
  isFinite : x.isFinite = true
  onGrid : OnGrid k x.toRat
  abs_le : |x.toRat| ≤ B

namespace F64.Within

variable {j k l : Nat} {A B : Rat} {x y : F64}

theorem mono (h : Within k B x) {B' : Rat} (hk : k ≤ l := by decide) (hB : B ≤ B' := by norm_num) : Within l B' x :=
  ⟨h.isFinite, h.onGrid.mono hk, h.abs_le.trans hB⟩

theorem ofInt {n : Int} {C : Nat} (hn : |n| ≤ C) (hC : C < 2 ^ 53) : Within 0 C (F64.ofInt n) := by
  have hn' : |n| < 2 ^ 53 := hn.trans_lt (by exact_mod_cast hC)
  refine ⟨isFinite_ofInt hn', ?_, ?_⟩ <;> rw [toRat_ofInt hn']
  · exact onGrid_intCast n
  · exact_mod_cast hn

theorem of_roundsTo {q : Rat} {C : Nat} (h : Machine.RoundsTo q x) (hq : OnGrid k q) (hk : k ≤ 1074) (hC : |q| ≤ C)
    (hC' : C < 2 ^ 53) : Within k C x := by
  refine ⟨h.1, h.onGrid hq hk, ?_⟩
  have hle := h.abs_le_div (m := C) (k := 0) (by exact_mod_cast hC') (by decide) (by simpa using hC)
  simpa using hle

section
variable (hx : Within j A x) (hy : Within k B y)
include hx hy

theorem abs_toRat_add_le : |x.toRat + y.toRat| ≤ A + B := (abs_add_le _ _).trans (add_le_add hx.abs_le hy.abs_le)

theorem abs_toRat_mul_le : |x.toRat * y.toRat| ≤ A * B := by
  rw [abs_mul]
  exact mul_le_mul hx.abs_le hy.abs_le (abs_nonneg _) ((abs_nonneg _).trans hx.abs_le)

variable {C : Nat}

theorem fadd_roundsTo (hC : A + B ≤ C := by norm_num) (hC' : C < 2 ^ 53 := by norm_num) :
    Machine.RoundsTo (x.toRat + y.toRat) (fadd x y) :=
  Sys2Proof.fadd_roundsTo hx.isFinite hy.isFinite ((hx.abs_toRat_add_le hy).trans (hC.trans (natCast_le_maxFinite hC')))

theorem fmul_roundsTo (hC : A * B ≤ C := by norm_num) (hC' : C < 2 ^ 53 := by norm_num) :
    Machine.RoundsTo (x.toRat * y.toRat) (fmul x y) :=
  Sys2Proof.fmul_roundsTo hx.isFinite hy.isFinite ((hx.abs_toRat_mul_le hy).trans (hC.trans (natCast_le_maxFinite hC')))

theorem fadd (hj : j ≤ l := by decide) (hk : k ≤ l := by decide) (hl : l ≤ 1074 := by decide)
    (hC : A + B ≤ C := by norm_num) (hC' : C < 2 ^ 53 := by norm_num) : Within l C (fadd x y) :=
  of_roundsTo (hx.fadd_roundsTo hy hC hC') ((hx.onGrid.mono hj).add (hy.onGrid.mono hk)) hl
    ((hx.abs_toRat_add_le hy).trans hC) hC'

theorem fmul (hl : j + k ≤ l := by decide) (hl' : l ≤ 1074 := by decide)
    (hC : A * B ≤ C := by norm_num) (hC' : C < 2 ^ 53 := by norm_num) : Within l C (fmul x y) :=
  of_roundsTo (hx.fmul_roundsTo hy hC hC') ((hx.onGrid.mul hy.onGrid).mono hl) hl' ((hx.abs_toRat_mul_le hy).trans hC) hC'

theorem fadd_ne_negZero (hxz : x ≠ negZero) (hC : A + B ≤ C := by norm_num) (hC' : C < 2 ^ 53 := by norm_num) :
    Sys2Proof.fadd x y ≠ negZero :=
  Sys2Proof.fadd_ne_negZero hx.isFinite hy.isFinite
    ((hx.abs_toRat_add_le hy).trans (hC.trans (natCast_le_maxFinite hC'))) hxz

/-- Adding a zero leaves every value but -0.0. -/
theorem fadd_eq_left (hxz : x ≠ negZero) (hy0 : y.toRat = 0) (hC : A + B ≤ C := by norm_num)
    (hC' : C < 2 ^ 53 := by norm_num) : Sys2Proof.fadd x y = x := by
  have h := hx.fadd_roundsTo hy hC hC'
  rw [hy0, add_zero] at h
  exact eq_of_toRat_eq (hx.fadd_ne_negZero hy hxz hC hC') hxz (h.toRat_eq_toRat hx.isFinite)

end

end F64.Within

end Sys2Proof
end

section
/-! PROOF. The raw value and the scalings (41_converter.md R132 to R134). -/

namespace Sys2Proof.Machine

open F64 (Within)

/-! ### The raw value -/

theorem toNat_append_bytes (a b c : Byte) : (a ++ b ++ c).toNat = a.toNat * 2 ^ 16 + b.toNat * 2 ^ 8 + c.toNat := by
  rw [BitVec.toNat_append, BitVec.toNat_append, ← Nat.shiftLeft_add_eq_or_of_lt b.isLt,
    ← Nat.shiftLeft_add_eq_or_of_lt c.isLt, Nat.shiftLeft_eq, Nat.shiftLeft_eq]
  ring

theorem raw24_eq_toInt (rb : Vector Byte 3) : raw24 rb = (rb[0] ++ rb[1] ++ rb[2]).toInt := by
  rw [raw24, ← toNat_append_bytes]
  exact twos_toNat _

theorem isRaw_toInt (v : BitVec 24) : IsRaw v.toInt := ⟨v.le_toInt, Int.le_sub_one_of_lt v.toInt_lt⟩

theorem isRaw_raw24 (rb : Vector Byte 3) : IsRaw (raw24 rb) := raw24_eq_toInt rb ▸ isRaw_toInt _

/-- Settles O35: the sum of shifted bytes is the number of their concatenation, whose sign correction is its signed value. -/
theorem rawAssemblyIsBigEndian : Obligations.RawAssemblyIsBigEndian := fun rb =>
  ⟨rfl, raw24_eq_toInt rb, isRaw_raw24 rb, by decide⟩

theorem IsRaw.abs_le_max {raw : Int} (h : IsRaw raw) : |raw| ≤ 8388608 := by
  obtain ⟨hlo, hhi⟩ := h
  exact abs_le.mpr ⟨hlo, by omega⟩

theorem IsRaw.abs_lt {raw : Int} (h : IsRaw raw) : |raw| < 2 ^ 53 := h.abs_le_max.trans_lt (by decide)

theorem isRaw_zero : IsRaw 0 := by unfold IsRaw; decide

/-! ### Scaling -/

section
variable {raw d : Int} (hraw : IsRaw raw) (hd : 0 < d) (hd' : d < 2 ^ 53)
include hraw hd hd'

/-- Dividing a raw value by a positive whole number rounds the quotient once. -/
theorem fdiv_ofInt_roundsTo : RoundsTo ((raw : Rat) / d) (fdiv (F64.ofInt raw) (F64.ofInt d)) := by
  have hd'' : |d| < 2 ^ 53 := by rwa [abs_of_pos hd]
  have hle : |(raw : Rat) / d| ≤ (8388608 : Nat) := by
    rw [abs_div, div_le_iff₀ (abs_pos.mpr (Int.cast_ne_zero.mpr hd.ne'))]
    have h1 : (1 : Rat) ≤ |(d : Rat)| := by exact_mod_cast Int.one_le_abs hd.ne'
    have h2 : |(raw : Rat)| ≤ 8388608 := by exact_mod_cast hraw.abs_le_max
    push_cast
    linarith
  have h := fdiv_roundsTo (x := F64.ofInt raw) (y := F64.ofInt d) (F64.isFinite_ofInt hraw.abs_lt) (F64.isFinite_ofInt hd'')
  rw [F64.toRat_ofInt hraw.abs_lt, F64.toRat_ofInt hd''] at h
  exact h (Int.cast_ne_zero.mpr hd.ne') (hle.trans (natCast_le_maxFinite (by decide)))

theorem sign_fdiv_ofInt : (fdiv (F64.ofInt raw) (F64.ofInt d)).sign = decide (raw < 0) := by
  have hd'' : |d| < 2 ^ 53 := by rwa [abs_of_pos hd]
  rw [sign_fdiv (F64.isFinite_ofInt hraw.abs_lt) (F64.isFinite_ofInt hd''), F64.sign_ofInt, F64.sign_ofInt,
    decide_eq_false hd.not_gt, Bool.bne_false]
  rw [F64.toRat_ofInt hd'']
  exact Int.cast_ne_zero.mpr hd.ne'

end

theorem abs_div_pressureDivisor (raw : Int) : |(raw : Rat) / 1572864| = |(raw : Rat)| / 1572864 := by
  rw [abs_div, abs_of_pos (by norm_num : (0 : Rat) < 1572864)]

section
variable {raw : Int} (hraw : IsRaw raw)
include hraw

theorem scaleT_roundsTo : RoundsTo ((raw : Rat) / 2 ^ 19) (scaleT raw) := by
  have h := fdiv_ofInt_roundsTo hraw (d := Config.kT) (by decide) (by decide)
  rwa [show ((Config.kT : Int) : Rat) = 2 ^ 19 by norm_num [Config.kT]] at h

theorem toRat_scaleT : (scaleT raw).toRat = (raw : Rat) / 2 ^ 19 :=
  (scaleT_roundsTo hraw).toRat_eq hraw.abs_lt (by decide) rfl

theorem scaleT_within : Within 19 16 (scaleT raw) := by
  refine ⟨(scaleT_roundsTo hraw).1, ⟨raw, toRat_scaleT hraw⟩, ?_⟩
  have h : |(raw : Rat)| ≤ 8388608 := by exact_mod_cast hraw.abs_le_max
  rw [toRat_scaleT hraw, abs_div, abs_of_pos (show (0 : Rat) < 2 ^ 19 by norm_num), div_le_iff₀ (by norm_num)]
  linarith

theorem scaleP_roundsTo : RoundsTo ((raw : Rat) / 1572864) (scaleP raw) := by
  have h := fdiv_ofInt_roundsTo hraw (d := Config.kP) (by decide) (by decide)
  rwa [show ((Config.kP : Int) : Rat) = 1572864 by norm_num [Config.kP]] at h

theorem abs_scaleP_le : |(scaleP raw).toRat| ≤ 11 / 2 := by
  have hle : |(raw : Rat)| ≤ 8388608 := by exact_mod_cast hraw.abs_le_max
  have h := (scaleP_roundsTo hraw).abs_le_div (m := 11) (k := 1) (by decide) (by decide) (by
    rw [abs_div_pressureDivisor, Int.cast_ofNat]
    linarith)
  rwa [pow_one, Int.cast_ofNat] at h

theorem le_abs_scaleP (h0 : raw ≠ 0) : 1 / 2 ^ 21 ≤ |(scaleP raw).toRat| := by
  have hle : (1 : Rat) ≤ |(raw : Rat)| := by exact_mod_cast Int.one_le_abs h0
  have h := (scaleP_roundsTo hraw).div_le_abs (m := 1) (k := 21) (by decide) (by decide) (by
    rw [abs_div_pressureDivisor, Int.cast_one]
    linarith)
  rwa [Int.cast_one] at h

omit hraw in
theorem toRat_scaleP_zero : (scaleP 0).toRat = 0 := by
  have h := (scaleP_roundsTo isRaw_zero).toRat_eq (m := 0) (k := 0) (by decide) (by decide) (by simp)
  simpa using h

/-- A quotient of at least `2^-21` has its last place at `2^-73` or above. -/
theorem scaleP_within : Within 73 (11 / 2) (scaleP raw) := by
  refine ⟨(scaleP_roundsTo hraw).1, ?_, abs_scaleP_le hraw⟩
  rcases eq_or_ne raw 0 with rfl | h0
  · exact ⟨0, by simp [toRat_scaleP_zero]⟩
  · refine F64.onGrid_of_two_pow_le (by decide) (le_trans ?_ (le_abs_scaleP hraw h0))
    norm_num

end

/-- Settles O37: the quotient has the 24 bits of the raw value, so its one rounding is exact. -/
theorem temperatureScaleIsExact : Obligations.TemperatureScaleIsExact :=
  ⟨by decide +kernel, fun _ hraw => ⟨rfl, (scaleT_roundsTo hraw).1, toRat_scaleT hraw⟩⟩

/-- The quotient is a binary64 value exactly when it is a whole number of `2^-19`: a factor 3 in the denominator is no power
of 2. -/
theorem toRat_scaleP_eq_iff {raw : Int} (hraw : IsRaw raw) : (scaleP raw).toRat = (raw : Rat) / 1572864 ↔ 3 ∣ raw := by
  constructor
  · intro h
    obtain ⟨m, hm⟩ := (scaleP_within hraw).onGrid
    rw [h, div_eq_div_iff (by norm_num) (by norm_num)] at hm
    have hm' : raw * 2 ^ 73 = m * 1572864 := by exact_mod_cast hm
    have hdvd : 3 ∣ raw * 2 ^ 73 := ⟨m * 524288, by rw [hm']; ring⟩
    exact (Int.prime_three.dvd_or_dvd hdvd).resolve_right (by norm_num)
  · rintro ⟨m, rfl⟩
    have hm : |m| < 2 ^ 53 := by
      have h := hraw.abs_lt
      rw [abs_mul] at h
      norm_num at h ⊢
      linarith [abs_nonneg m]
    have hq : ((3 * m : Int) : Rat) / 1572864 = m / 2 ^ 19 := by
      push_cast
      ring
    rw [hq]
    exact (scaleP_roundsTo hraw).toRat_eq hm (by decide) hq

/-- Settles O38: one rounding of the quotient (`fdiv_roundsTo`), which is exact where the factor 3 cancels. -/
theorem pressureScaleRoundsOnce : Obligations.PressureScaleRoundsOnce :=
  ⟨by decide +kernel, by decide +kernel, fun _ hraw => ⟨rfl, scaleP_roundsTo hraw, toRat_scaleP_eq_iff hraw⟩⟩

end Sys2Proof.Machine
end

section
/-! PROOF. The temperature (41_converter.md R135, R161): every operation of `polyT` is exact. -/

namespace Sys2Proof.Machine

open F64 (Within)

/-- A coefficient is bounded by its register's width (40_decoder.md R120). -/
theorem abs_toInt_le {w : Nat} (v : BitVec (w + 1)) : |v.toInt| ≤ (2 ^ w : Nat) := by
  rw [Nat.cast_pow, Nat.cast_ofNat]
  exact abs_le.mpr ⟨v.le_toInt, v.toInt_lt.le⟩

theorem abs_toInt_lt {w : Nat} (v : BitVec (w + 1)) (hw : w < 53) : |v.toInt| < 2 ^ 53 :=
  (abs_toInt_le v).trans_lt (by exact_mod_cast Nat.pow_lt_pow_right one_lt_two hw)

theorem coefficient_within {w : Nat} (v : BitVec (w + 1)) (hw : w < 53) : Within 0 (2 ^ w : Nat) (F64.ofInt v.toInt) :=
  Within.ofInt (abs_toInt_le v) (Nat.pow_lt_pow_right one_lt_two hw)

theorem coefficient_ne_negZero {w : Nat} (v : BitVec (w + 1)) (hw : w < 53) : F64.ofInt v.toInt ≠ F64.negZero :=
  F64.ofInt_ne_negZero (abs_toInt_lt v hw)

theorem toRat_half : F64.toRat Config.half = 1 / 2 := by
  have hu : F64.units Config.half = 2 ^ 1073 := by decide +kernel
  rw [F64.toRat, hu, F64.unitScale_eq_mul (k := 1) (by decide), Int.cast_pow, Int.cast_ofNat, pow_one,
    ← div_div, div_self (by positivity)]

theorem half_within : Within 1 (1 / 2) Config.half :=
  ⟨by decide, ⟨1, by norm_num [toRat_half]⟩, by norm_num [toRat_half]⟩

/-- The product of a 12-bit coefficient and a raw value, between the products of the ends of their ranges. -/
theorem toInt_mul_raw_range (c : BitVec 12) {raw : Int} (hraw : IsRaw raw) :
    -(2048 * 8388607) ≤ c.toInt * raw ∧ c.toInt * raw ≤ 2048 * 8388608 := by
  obtain ⟨hr1, hr2⟩ := hraw
  have hlo : -2048 ≤ c.toInt := c.le_toInt
  have hhi : c.toInt ≤ 2047 := Int.le_sub_one_of_lt c.toInt_lt
  constructor <;> nlinarith

section
variable (c0 c1 : BitVec 12)

theorem fmul_half_within : Within 1 (1024 : Nat) (fmul (F64.ofInt c0.toInt) Config.half) :=
  (coefficient_within c0 (by decide)).fmul half_within

theorem toRat_fmul_half : (fmul (F64.ofInt c0.toInt) Config.half).toRat = (c0.toInt : Rat) / 2 := by
  have hc := abs_toInt_lt c0 (by decide)
  have h := ((coefficient_within c0 (by decide)).fmul_roundsTo half_within (C := 1024)).toRat_eq hc (k := 1) (by decide)
    (by rw [F64.toRat_ofInt hc, toRat_half, pow_one, mul_one_div])
  rwa [pow_one] at h

theorem fmul_half_ne_negZero : fmul (F64.ofInt c0.toInt) Config.half ≠ F64.negZero := by
  have hsign : Config.half.sign = false := by decide
  rw [F64.ne_negZero_iff, sign_fmul (coefficient_within c0 (by decide)).isFinite half_within.isFinite, F64.sign_ofInt,
    hsign, Bool.bne_false, decide_eq_true_iff, toRat_fmul_half]
  exact fun hneg => div_ne_zero (Int.cast_ne_zero.mpr hneg.ne) two_ne_zero

variable {raw : Int} (hraw : IsRaw raw)
include hraw

theorem fmul_scaleT_within : Within 19 (32768 : Nat) (fmul (F64.ofInt c1.toInt) (scaleT raw)) :=
  (coefficient_within c1 (by decide)).fmul (scaleT_within hraw)

theorem toRat_fmul_scaleT :
    (fmul (F64.ofInt c1.toInt) (scaleT raw)).toRat = (c1.toInt * raw : Int) / 2 ^ 19 := by
  obtain ⟨hlo, hhi⟩ := toInt_mul_raw_range c1 hraw
  refine ((coefficient_within c1 (by decide)).fmul_roundsTo (scaleT_within hraw) (C := 32768)).toRat_eq
    (abs_lt.mpr ⟨by linarith, by linarith⟩) (by decide) ?_
  rw [F64.toRat_ofInt (abs_toInt_lt c1 (by decide)), toRat_scaleT hraw, Int.cast_mul, mul_div_assoc]

theorem polyT_within : Within 19 (33792 : Nat) (polyT c0.toInt c1.toInt (scaleT raw)) :=
  (fmul_half_within c0).fadd (fmul_scaleT_within c1 hraw)

/-- The sum of the two exact products has fewer than 36 bits of units `2^-19`. -/
theorem toRat_polyT : (polyT c0.toInt c1.toInt (scaleT raw)).toRat =
    (c0.toInt : Rat) / 2 + (c1.toInt : Rat) * raw / 2 ^ 19 := by
  have hclo : -2048 ≤ c0.toInt := c0.le_toInt
  have hchi : c0.toInt < 2048 := c0.toInt_lt
  obtain ⟨hlo, hhi⟩ := toInt_mul_raw_range c1 hraw
  have hsum : (c0.toInt : Rat) / 2 + (c1.toInt : Rat) * raw / 2 ^ 19 =
      (c0.toInt * 2 ^ 18 + c1.toInt * raw : Int) / 2 ^ 19 := by
    push_cast
    ring
  rw [hsum]
  refine ((fmul_half_within c0).fadd_roundsTo (fmul_scaleT_within c1 hraw) (C := 33792)).toRat_eq
    (abs_lt.mpr ⟨by linarith, by linarith⟩) (by decide) ?_
  rw [toRat_fmul_half, toRat_fmul_scaleT c1 hraw, ← hsum, Int.cast_mul]

theorem polyT_ne_negZero : polyT c0.toInt c1.toInt (scaleT raw) ≠ F64.negZero :=
  (fmul_half_within c0).fadd_ne_negZero (fmul_scaleT_within c1 hraw) (fmul_half_ne_negZero c0) (C := 33792)

end

/-- Settles O40: each operation of `polyT` is exact (`toRat_polyT`), and the ends of the range are at the ends of the
operands' ranges. -/
theorem temperatureIsExact : Obligations.TemperatureIsExact := by
  refine ⟨fun c0 c1 raw hraw => ⟨(polyT_within c0 c1 hraw).isFinite, toRat_polyT c0 c1 hraw, ?lower, ?upper⟩,
    ⟨-2048#12, -2048#12, 8388607, by unfold IsRaw; decide, ?bottom⟩,
    ⟨2047#12, -2048#12, -8388608, by unfold IsRaw; decide, ?top⟩⟩
  case lower =>
    have hc : -2048 ≤ (c0.toInt : Rat) := by exact_mod_cast c0.le_toInt
    have hp : (-(2048 * 8388607) : Rat) ≤ c1.toInt * raw := by exact_mod_cast (toInt_mul_raw_range c1 hraw).1
    rw [toRat_polyT c0 c1 hraw]
    linarith
  case upper =>
    have hc : (c0.toInt : Rat) ≤ 2047 := by exact_mod_cast Int.le_sub_one_of_lt c0.toInt_lt
    have hp : (c1.toInt * raw : Rat) ≤ 2048 * 8388608 := by exact_mod_cast (toInt_mul_raw_range c1 hraw).2
    rw [toRat_polyT c0 c1 hraw]
    linarith
  case bottom =>
    rw [toRat_polyT _ _ (by unfold IsRaw; decide), show (-2048#12).toInt = -2048 by decide]
    norm_num
  case top =>
    rw [toRat_polyT _ _ (by unfold IsRaw; decide), show (-2048#12).toInt = -2048 by decide,
      show (2047#12).toInt = 2047 by decide]
    norm_num

end Sys2Proof.Machine
end

section
/-! PROOF. The pressure (41_converter.md R136, R160, R162): the thirteen operations stay bounded, and keep the units of their
operands. -/

namespace Sys2Proof.Machine

open F64 (Within)

/-- Settles O39: `polyP` is its tree written out; an exact sum or product does not depend on the order of its operands. -/
theorem pressureEvaluationOrder : Obligations.PressureEvaluationOrder := by
  refine ⟨fun _ _ _ => rfl, fun _ _ hx hy => ⟨fadd_comm hx hy, fmul_comm hx hy⟩, ?_⟩
  rintro _ rfl
  decide +kernel

section
variable (c : Coeffs) {tsc psc : F64} (htsc : Within 19 16 tsc) (hpsc : Within 73 (11 / 2) psc)
include htsc hpsc

/-- The thirteen steps of R136 with the bounds of R160: products multiply bounds and units, sums add bounds. -/
theorem pressureTree_within : ∀ x ∈ (pressureTree c tsc psc).values, Within 219 (29118464 : Nat) x := by
  have ht1 : Within 73 (180224 : Nat) (pressureTree c tsc psc).t1 := hpsc.fmul (coefficient_within c.c30 (by decide))
  have ht2 : Within 73 (212992 : Nat) (pressureTree c tsc psc).t2 := (coefficient_within c.c20 (by decide)).fadd ht1
  have ht3 : Within 146 (1171456 : Nat) (pressureTree c tsc psc).t3 := hpsc.fmul ht2
  have ht4 : Within 146 (1695744 : Nat) (pressureTree c tsc psc).t4 := (coefficient_within c.c10 (by decide)).fadd ht3
  have ht5 : Within 219 (9326592 : Nat) (pressureTree c tsc psc).t5 := hpsc.fmul ht4
  have hs1 : Within 219 (9850880 : Nat) (pressureTree c tsc psc).s1 := (coefficient_within c.c00 (by decide)).fadd ht5
  have ht6 : Within 19 (524288 : Nat) (pressureTree c tsc psc).t6 := htsc.fmul (coefficient_within c.c01 (by decide))
  have hs2 : Within 219 (10375168 : Nat) (pressureTree c tsc psc).s2 := hs1.fadd ht6
  have ht7 : Within 92 (88 : Nat) (pressureTree c tsc psc).t7 := htsc.fmul hpsc
  have ht8 : Within 73 (180224 : Nat) (pressureTree c tsc psc).t8 := hpsc.fmul (coefficient_within c.c21 (by decide))
  have ht9 : Within 73 (212992 : Nat) (pressureTree c tsc psc).t9 := (coefficient_within c.c11 (by decide)).fadd ht8
  have ht10 : Within 165 (18743296 : Nat) (pressureTree c tsc psc).t10 := ht7.fmul ht9
  have hpres : Within 219 (29118464 : Nat) (pressureTree c tsc psc).pres := hs2.fadd ht10
  simp only [PressureTree.values, List.forall_mem_cons, List.not_mem_nil, false_implies, implies_true, and_true]
  exact ⟨ht1.mono, ht2.mono, ht3.mono, ht4.mono, ht5.mono, hs1.mono, ht6.mono, hs2.mono, ht7.mono, ht8.mono, ht9.mono,
    ht10.mono, hpres⟩

/-- `f64(c00)` is not -0.0, and no sum that starts with it is (41_converter.md R162). -/
theorem pressure_sums_ne_negZero : (pressureTree c tsc psc).s1 ≠ F64.negZero ∧
    (pressureTree c tsc psc).s2 ≠ F64.negZero ∧ polyP c tsc psc ≠ F64.negZero := by
  have hw := pressureTree_within c htsc hpsc
  simp only [PressureTree.values, List.forall_mem_cons] at hw
  obtain ⟨-, -, -, -, ht5, hs1, ht6, hs2, -, -, -, ht10, -⟩ := hw
  have hs1z : (pressureTree c tsc psc).s1 ≠ F64.negZero :=
    (coefficient_within c.c00 (by decide)).fadd_ne_negZero ht5 (coefficient_ne_negZero c.c00 (by decide)) (C := 2 ^ 30)
  have hs2z : (pressureTree c tsc psc).s2 ≠ F64.negZero := hs1.fadd_ne_negZero ht6 hs1z (C := 2 ^ 30)
  exact ⟨hs1z, hs2z, hs2.fadd_ne_negZero ht10 hs2z (C := 2 ^ 30)⟩

/-- With `psc` zero every product with it is a zero, and adding a zero to a value other than -0.0 leaves the value. -/
theorem polyP_of_psc_zero (h0 : psc.toRat = 0) :
    polyP c tsc psc = fadd (F64.ofInt c.c00.toInt) (fmul tsc (F64.ofInt c.c01.toInt)) := by
  have hw := pressureTree_within c htsc hpsc
  simp only [PressureTree.values, List.forall_mem_cons] at hw
  obtain ⟨-, -, -, ht4, ht5, -, -, hs2, ht7, -, ht9, ht10, -⟩ := hw
  have h5 : (pressureTree c tsc psc).t5.toRat = 0 :=
    toRat_fmul_eq_zero hpsc.isFinite ht4.isFinite (mul_eq_zero_of_left h0 _)
  have h7 : (pressureTree c tsc psc).t7.toRat = 0 :=
    toRat_fmul_eq_zero htsc.isFinite hpsc.isFinite (mul_eq_zero_of_right _ h0)
  have h10 : (pressureTree c tsc psc).t10.toRat = 0 :=
    toRat_fmul_eq_zero ht7.isFinite ht9.isFinite (mul_eq_zero_of_left h7 _)
  have hs1 : (pressureTree c tsc psc).s1 = F64.ofInt c.c00.toInt :=
    (coefficient_within c.c00 (by decide)).fadd_eq_left ht5 (coefficient_ne_negZero c.c00 (by decide)) h5 (C := 2 ^ 30)
  calc polyP c tsc psc = fadd (pressureTree c tsc psc).s2 (pressureTree c tsc psc).t10 := rfl
    _ = (pressureTree c tsc psc).s2 :=
      hs2.fadd_eq_left ht10 (pressure_sums_ne_negZero c htsc hpsc).2.1 h10 (C := 2 ^ 30)
    _ = fadd (pressureTree c tsc psc).s1 (pressureTree c tsc psc).t6 := rfl
    _ = fadd (F64.ofInt c.c00.toInt) (fmul tsc (F64.ofInt c.c01.toInt)) := by rw [hs1]; rfl

end

/-! ### Every value of a conversion -/

section
variable (c : Coeffs) {rawT raw : Int} (hrawT : IsRaw rawT) (hraw : IsRaw raw)
include hrawT hraw

theorem conversion_within : ∀ x ∈ [scaleT rawT, scaleP raw, polyT c.c0.toInt c.c1.toInt (scaleT rawT)]
    ++ (pressureTree c (scaleT rawT) (scaleP raw)).values, Within 219 (29118464 : Nat) x := by
  rw [List.forall_mem_append]
  refine ⟨?_, pressureTree_within c (scaleT_within hrawT) (scaleP_within hraw)⟩
  simp only [List.forall_mem_cons, List.not_mem_nil, false_implies, implies_true, and_true]
  exact ⟨(scaleT_within hrawT).mono, (scaleP_within hraw).mono, (polyT_within c.c0 c.c1 hrawT).mono⟩

end

/-- Scaling keeps the order of the raw values. -/
theorem toRat_scaleP_mono {raw raw' : Int} (hraw : IsRaw raw) (hraw' : IsRaw raw') (h : raw ≤ raw') :
    (scaleP raw).toRat ≤ (scaleP raw').toRat := by
  rcases h.eq_or_lt with rfl | hlt
  · exact le_rfl
  · refine (scaleP_roundsTo hraw).toRat_mono (scaleP_roundsTo hraw') (div_lt_div_of_pos_right ?_ (by norm_num))
    exact Int.cast_lt.mpr hlt

/-- Settles O41: the scalings keep the order of the raw values, and every value of a conversion is bounded
(`conversion_within`). -/
theorem noOverflowInConversions : Obligations.NoOverflowInConversions := by
  intro c rawT raw hrawT hraw
  have hmin : scaleP (-8388608) = 0xC015555555555555#64 := by decide +kernel
  have hmax : scaleP 8388607 = 0x401555552AAAAAAB#64 := by decide +kernel
  refine ⟨⟨?_, ?_⟩, ⟨?_, ?_⟩, fun x hx => ?_⟩
  · have hlo : (-8388608 : Rat) ≤ rawT := by exact_mod_cast hrawT.1
    rw [toRat_scaleT hrawT]
    linarith
  · have hhi : (rawT : Rat) ≤ 8388607 := by exact_mod_cast hrawT.2
    rw [toRat_scaleT hrawT]
    linarith
  · rw [← hmin]
    exact toRat_scaleP_mono (by unfold IsRaw; decide) hraw hraw.1
  · rw [← hmax]
    exact toRat_scaleP_mono hraw (by unfold IsRaw; decide) hraw.2
  · have hw := conversion_within c hrawT hraw x hx
    exact ⟨hw.isFinite, hw.abs_le.trans_lt (by norm_num)⟩

/-- Settles O42: every value of a conversion is a whole number of units `2^-219` (`conversion_within`). -/
theorem noUnderflowInConversions : Obligations.NoUnderflowInConversions := by
  intro c rawT raw hrawT hraw x hx h0
  exact ((conversion_within c hrawT hraw x hx).onGrid.mono (by decide)).one_div_le_abs h0

/-! ### No -0.0 -/

section
variable {raw : Int} (hraw : IsRaw raw)
include hraw

theorem toRat_scaleT_eq_zero_iff : (scaleT raw).toRat = 0 ↔ raw = 0 := by
  simp [toRat_scaleT hraw]

theorem toRat_scaleP_eq_zero_iff : (scaleP raw).toRat = 0 ↔ raw = 0 := by
  refine ⟨fun h => by_contra fun h0 => ?_, fun h => h ▸ toRat_scaleP_zero⟩
  have hle := le_abs_scaleP hraw h0
  rw [h, abs_zero] at hle
  norm_num at hle

theorem scaleT_ne_negZero : scaleT raw ≠ F64.negZero := by
  rw [F64.ne_negZero_iff, scaleT, sign_fdiv_ofInt hraw (by decide) (by decide), decide_eq_true_iff, ← scaleT, ne_eq,
    toRat_scaleT_eq_zero_iff hraw]
  exact fun hneg => hneg.ne

theorem scaleP_ne_negZero : scaleP raw ≠ F64.negZero := by
  rw [F64.ne_negZero_iff, scaleP, sign_fdiv_ofInt hraw (by decide) (by decide), decide_eq_true_iff, ← scaleP, ne_eq,
    toRat_scaleP_eq_zero_iff hraw]
  exact fun hneg => hneg.ne

theorem scaleT_eq_zero_iff : scaleT raw = 0#64 ↔ raw = 0 := by
  rw [F64.eq_zero_iff (scaleT_ne_negZero hraw), toRat_scaleT_eq_zero_iff hraw]

theorem scaleP_eq_zero_iff : scaleP raw = 0#64 ↔ raw = 0 := by
  rw [F64.eq_zero_iff (scaleP_ne_negZero hraw), toRat_scaleP_eq_zero_iff hraw]

end

theorem zero_ne_negZero : (0#64 : F64) ≠ F64.negZero := by decide

/-- In a state with the invariant each result register is +0.0 or the result of a conversion. -/
theorem results_ne_negZero {s : State} (h : BlockInv s) :
    s.tsc ≠ F64.negZero ∧ s.psc ≠ F64.negZero ∧ s.temp ≠ F64.negZero ∧ s.pres ≠ F64.negZero := by
  have htemperature : s.tsc ≠ F64.negZero ∧ s.temp ≠ F64.negZero := by
    cases hv : s.tscValid with
    | false =>
      obtain ⟨htsc, htemp, -⟩ := h.no_temperature hv
      rw [htsc, htemp]
      exact ⟨zero_ne_negZero, zero_ne_negZero⟩
    | true =>
      obtain ⟨raw, hraw, htsc, htemp⟩ := h.temperature hv
      rw [htsc, htemp]
      exact ⟨scaleT_ne_negZero hraw, polyT_ne_negZero _ _ hraw⟩
  have hpressure : s.psc ≠ F64.negZero ∧ s.pres ≠ F64.negZero := by
    cases hv : s.prsValid with
    | false =>
      obtain ⟨hpsc, hpres⟩ := h.no_pressure hv
      rw [hpsc, hpres]
      exact ⟨zero_ne_negZero, zero_ne_negZero⟩
    | true =>
      obtain ⟨rawT, raw, hrawT, hraw, hpsc, hpres⟩ := h.pressure hv
      rw [hpsc, hpres]
      exact ⟨scaleP_ne_negZero hraw, (pressure_sums_ne_negZero _ (scaleT_within hrawT) (scaleP_within hraw)).2.2⟩
  exact ⟨htemperature.1, hpressure.1, htemperature.2, hpressure.2⟩

/-- Settles O43: a scaled value is zero for raw 0 alone and has the sign of the raw value; the sums start with a coefficient,
which is not -0.0; the registers hold such results (`results_ne_negZero`). -/
theorem noNegativeZeroResult : Obligations.NoNegativeZeroResult := by
  refine ⟨fun raw hraw => ⟨scaleT_eq_zero_iff hraw, scaleP_eq_zero_iff hraw, scaleT_ne_negZero hraw,
    scaleP_ne_negZero hraw⟩, fun c rawT raw hrawT hraw => ⟨polyT_ne_negZero _ _ hrawT,
    pressure_sums_ne_negZero c (scaleT_within hrawT) (scaleP_within hraw)⟩, fun s hs => ?registers, fun tsc => ?t3⟩
  case registers =>
    simp only [List.forall_mem_cons, List.not_mem_nil, false_implies, implies_true, and_true]
    exact results_ne_negZero hs
  case t3 =>
    simp only [pressureTree]
    decide +kernel

end Sys2Proof.Machine
end

section
/-! PROOF. The commands `MLD`, `CVT` and `CVP` (41_converter.md R131, R140, R150): their words, their effect and their errors. -/

namespace Sys2Proof

theorem decode_encode_mld (idx data : Byte) :
    decode (encode (.mld idx data)) = if 3 ≤ idx.toNat then .error .badIndex else .ok (.mld idx data) := by
  rw [decode_of_indexed_row (op := .mld) (Laws.EncodedRow.mld idx data).1 (by decide)]
  simp [encode, Opcode.limit, Opcode.select]

end Sys2Proof

namespace Sys2Proof.Machine

theorem rawComplete_iff {s : State} : rawComplete s = true ↔ ∀ k : Fin 3, s.rbv[k] = true := allSet_toList s.rbv

theorem rawComplete_eq_false {s : State} (h : ∃ k : Fin 3, s.rbv[k] = false) : rawComplete s = false := by
  obtain ⟨k, hk⟩ := h
  exact Bool.eq_false_iff.mpr fun hc => by simpa [hk] using rawComplete_iff.mp hc k

theorem exec_mld_of_lt {idx : Byte} (h : idx.toNat < 3) (data : Byte) (s : State) : exec (.mld idx data) s =
    succeed 0#64 { s with rb := s.rb.set idx.toNat data h, rbv := s.rbv.set idx.toNat true h } :=
  dif_pos h

/-- Settles O21: below the limit `MLD` sets one entry of each vector; the errors are the decoder's rejections. -/
theorem mldLoadsOneRawByte : Obligations.MldLoadsOneRawByte := by
  intro s idx rsv data
  have hd := decode_encode_mld idx data
  refine ⟨fun hidx => ⟨by rwa [if_neg hidx.not_ge] at hd, _, exec_mld_of_lt hidx data s, rfl, rfl, fun k => ?_⟩,
    fun hrsv => ?_, fun hidx => ?_⟩
  · simp [Vector.getElem_set, eq_comm]
  · exact step_present_fails (decode_of_rsvField_ne_zero (by simpa using hrsv)) s
  · rw [if_pos hidx] at hd
    exact step_present_fails hd s

/-! ### `CVT` -/

section
variable {s : State}

theorem exec_cvt_of_complete (hcal : s.calValid = true) (h : rawComplete s = true) : exec .cvt s =
    succeed 0#64 { s with
      tsc := scaleT (raw24 s.rb)
      temp := polyT s.coef.c0.toInt s.coef.c1.toInt (scaleT (raw24 s.rb))
      tscValid := true
      rbv := noRaw } := by
  simp [exec, execCvt, hcal, h]

theorem cvt_fails_of_uncalibrated (hcal : s.calValid = false) : Fails (exec .cvt s) 5#4 s := by
  have he : exec .cvt s = raise .notCalibrated s := by simp [exec, execCvt, hcal]
  exact he ▸ raise_fails .notCalibrated s

theorem cvt_fails_of_incomplete (hcal : s.calValid = true) (h : rawComplete s = false) : Fails (exec .cvt s) 6#4 s := by
  have he : exec .cvt s = raise .rawIncomplete s := by simp [exec, execCvt, hcal, h]
  exact he ▸ raise_fails .rawIncomplete s

end

theorem noRaw_getElem (k : Fin 3) : noRaw[k] = false := by
  simp [noRaw]

theorem toRat_polyT_zero (c0 c1 : BitVec 12) : (polyT c0.toInt c1.toInt (scaleT 0)).toRat = (c0.toInt : Rat) / 2 := by
  simp [toRat_polyT c0 c1 isRaw_zero]

theorem polyT_zero_zero (c1 : BitVec 12) : polyT 0 c1.toInt (scaleT 0) = 0#64 :=
  (F64.eq_zero_iff (polyT_ne_negZero 0#12 c1 isRaw_zero)).mpr ((toRat_polyT_zero 0#12 c1).trans (by simp))

/-- Settles O22: each of R140's errors in its case; a success clears `RBV`, which leads to the second; the corners are exact. -/
theorem cvtConvertsTemperature : Obligations.CvtConvertsTemperature := by
  intro s
  refine ⟨cvt_fails_of_uncalibrated, fun hcal h => cvt_fails_of_incomplete hcal (rawComplete_eq_false h),
    fun hcal h => ?complete, by decide, fun w hop hw => ?illegal, by decide +kernel, by decide +kernel, by decide +kernel,
    toRat_polyT_zero, polyT_zero_zero⟩
  case complete => exact ⟨_, exec_cvt_of_complete hcal (rawComplete_iff.mpr h), rfl, rfl, noRaw_getElem,
    cvt_fails_of_incomplete hcal rfl⟩
  case illegal => exact step_present_fails (decode_of_ne_rowMatch (op := .cvt) rfl hop hw) s

/-! ### `CVP` -/

section
variable {s : State}

theorem exec_cvp_of_complete (hcal : s.calValid = true) (htsc : s.tscValid = true) (h : rawComplete s = true) :
    exec .cvp s = succeed 0#64 { s with
      psc := scaleP (raw24 s.rb)
      pres := polyP s.coef s.tsc (scaleP (raw24 s.rb))
      prsValid := true
      rbv := noRaw } := by
  simp [exec, execCvp, hcal, htsc, h]

theorem cvp_fails_of_uncalibrated (hcal : s.calValid = false) : Fails (exec .cvp s) 5#4 s := by
  have he : exec .cvp s = raise .notCalibrated s := by simp [exec, execCvp, hcal]
  exact he ▸ raise_fails .notCalibrated s

theorem cvp_fails_of_no_tsc (hcal : s.calValid = true) (htsc : s.tscValid = false) : Fails (exec .cvp s) 7#4 s := by
  have he : exec .cvp s = raise .noTsc s := by simp [exec, execCvp, hcal, htsc]
  exact he ▸ raise_fails .noTsc s

theorem cvp_fails_of_incomplete (hcal : s.calValid = true) (htsc : s.tscValid = true) (h : rawComplete s = false) :
    Fails (exec .cvp s) 6#4 s := by
  have he : exec .cvp s = raise .rawIncomplete s := by simp [exec, execCvp, hcal, htsc, h]
  exact he ▸ raise_fails .rawIncomplete s

end

/-- Settles O23: each of R150's errors in its case; a success writes what `CVP` computes; with raw 0 only the two terms without
`psc` are left (`polyP_of_psc_zero`). -/
theorem cvpConvertsPressure : Obligations.CvpConvertsPressure := by
  intro s
  refine ⟨cvp_fails_of_uncalibrated, cvp_fails_of_no_tsc,
    fun hcal htsc h => cvp_fails_of_incomplete hcal htsc (rawComplete_eq_false h), fun hcal htsc h => ?complete,
    by decide, fun w hop hw => ?illegal, by decide +kernel, fun c rawT hrawT => ?corner⟩
  case complete => exact ⟨_, exec_cvp_of_complete hcal htsc (rawComplete_iff.mpr h), rfl, rfl, noRaw_getElem⟩
  case illegal => exact step_present_fails (decode_of_ne_rowMatch (op := .cvp) rfl hop hw) s
  case corner => exact polyP_of_psc_zero c (scaleT_within hrawT) (scaleP_within isRaw_zero) toRat_scaleP_zero

end Sys2Proof.Machine
end

section
/-! PROOF. How a command and a presented word end, once, with what they answer: a check fails and the error is raised in the
state before, or the command completes. -/

namespace Sys2Proof.Machine

theorem answer_of_raise {e : ErrorCode} {u t : State} (h : raise e u = .next t) :
    t.answer = some { resp := e.code, dout := 0#64 } := by
  rw [raise_next h]
  rfl

theorem answer_ok_of_succeed {dout : BitVec 64} {u t : State} (h : succeed dout u = .next t) :
    t.answer = some { resp := 0#4, dout := dout } := by
  rw [succeed_next h]
  rfl

/-- The command `i`, its checks passed in the state `s`, ends in the outcome `o`. -/
inductive Completes : Instr → State → Host.Outcome State Fault Refusal → Prop where
  | nop {s : State} : Completes .nop s (succeed 0#64 s)
  | rdc {idx : Byte} {s : State} {v : Int} (hv : coefAt s.coef idx.toNat = some v) (hcal : s.calValid = true) :
      Completes (.rdc idx) s (succeed (sext64 v) s)
  | rdr {idx : Byte} {s : State} {v : F64} (hv : resultAt s idx.toNat = some v) : Completes (.rdr idx) s (succeed v s)
  | rds {s : State} : Completes .rds s (succeedUnrecorded (zext64 (status s)) s)
  | berr {s u : State} (hu : Writes .berr s u) : Completes .berr s (raise .busError u)
  | writes {i : Instr} {s u : State} (hu : Writes i s u) (hberr : i ≠ .berr) : Completes i s (succeed 0#64 u)

/-- Everything a command can do. -/
theorem exec_cases (i : Instr) (s : State) : (∃ e, exec i s = raise e s) ∨ Completes i s (exec i s) := by
  cases i with
  | nop => exact .inr .nop
  | cld idx data =>
    obtain ⟨hidx, he⟩ | ⟨-, he⟩ := execCld_cases idx data s <;> rw [exec, he]
    · exact .inr (.writes (.cld hidx) nofun)
    · exact .inl ⟨_, rfl⟩
  | cdec =>
    obtain ⟨-, he⟩ | ⟨-, -, he⟩ | ⟨hcal, hbytes, he⟩ := execCdec_cases s <;> rw [exec, he]
    · exact .inl ⟨_, rfl⟩
    · exact .inl ⟨_, rfl⟩
    · exact .inr (.writes (.cdec hcal hbytes) nofun)
  | mld idx data =>
    obtain ⟨hidx, he⟩ | ⟨-, he⟩ := execMld_cases idx data s <;> rw [exec, he]
    · exact .inr (.writes (.mld hidx) nofun)
    · exact .inl ⟨_, rfl⟩
  | cvt =>
    obtain ⟨-, he⟩ | ⟨-, -, he⟩ | ⟨hcal, hraw, he⟩ := execCvt_cases s <;> rw [exec, he]
    · exact .inl ⟨_, rfl⟩
    · exact .inl ⟨_, rfl⟩
    · exact .inr (.writes (.cvt hcal hraw) nofun)
  | cvp =>
    obtain ⟨-, he⟩ | ⟨-, -, he⟩ | ⟨-, -, -, he⟩ | ⟨hcal, htsc, hraw, he⟩ := execCvp_cases s <;> rw [exec, he]
    · exact .inl ⟨_, rfl⟩
    · exact .inl ⟨_, rfl⟩
    · exact .inl ⟨_, rfl⟩
    · exact .inr (.writes (.cvp hcal htsc hraw) nofun)
  | rdc idx =>
    obtain ⟨-, he⟩ | ⟨_, -, -, he⟩ | ⟨_, hv, hcal, he⟩ := execRdc_cases idx s <;> rw [exec, he]
    · exact .inl ⟨_, rfl⟩
    · exact .inl ⟨_, rfl⟩
    · exact .inr (.rdc hv hcal)
  | rdr idx =>
    obtain ⟨-, he⟩ | ⟨_, hv, he⟩ := execRdr_cases idx s <;> rw [exec, he]
    · exact .inl ⟨_, rfl⟩
    · exact .inr (.rdr hv)
  | rds => exact .inr .rds
  | berr => exact .inr (.berr .berr)
  | rst => exact .inr (.writes .rst nofun)

/-- Everything a presented word can do. -/
theorem perform_cases (w : CmdWord) (s : State) :
    (∃ e, perform w s = raise e s) ∨ ∃ i, decode w = .ok i ∧ Completes i s (perform w s) := by
  cases hd : decode w with
  | error r => exact .inl ⟨rejectCode r, by simp only [perform, hd]⟩
  | ok i =>
    rw [perform_of_decode hd]
    exact (exec_cases i s).imp_right fun h => ⟨i, rfl, h⟩

end Sys2Proof.Machine
end

section
/-! PROOF. The reads repeat (42_control.md R173): `RDC` and `RDR` depend on six registers, which no quiet step writes. -/

namespace Sys2Proof.Machine

/-- The registers an `RDC` or `RDR` depends on (42_control.md R170, R171). -/
def State.readView (s : State) : Coeffs × Bool × F64 × F64 × F64 × F64 :=
  (s.coef, s.calValid, s.temp, s.pres, s.tsc, s.psc)

theorem readView_inj {s t : State} : s.readView = t.readView ↔
    s.coef = t.coef ∧ s.calValid = t.calValid ∧ s.temp = t.temp ∧ s.pres = t.pres ∧ s.tsc = t.tsc ∧ s.psc = t.psc := by
  simp only [State.readView, Prod.mk.injEq]

/-- States with one view answer every read alike. -/
theorem read_answer_eq {s t : State} (h : s.readView = t.readView) (idx : Byte) :
    ∀ i ∈ [Instr.rdc idx, Instr.rdr idx], ∃ a b, exec i s = .next a ∧ exec i t = .next b ∧ a.answer = b.answer := by
  obtain ⟨hcoef, hcal, htemp, hpres, htsc, hpsc⟩ := readView_inj.mp h
  have hresult : resultAt s idx.toNat = resultAt t idx.toNat := by
    simp only [resultAt, htemp, hpres, htsc, hpsc]
  simp only [List.forall_mem_cons, List.not_mem_nil, false_implies, implies_true, and_true]
  constructor
  · simp only [exec, execRdc, hcoef, hcal]
    cases coefAt t.coef idx.toNat with
    | none => exact ⟨_, _, rfl, rfl, rfl⟩
    | some v => cases t.calValid <;> exact ⟨_, _, rfl, rfl, rfl⟩
  · simp only [exec, execRdr, hresult]
    cases resultAt t idx.toNat <;> exact ⟨_, _, rfl, rfl, rfl⟩

section
variable {i : Instr} {s t u : State}

theorem Answered.readView_eq (h : Answered u t) : t.readView = u.readView := by
  obtain ⟨_, _, _, rfl⟩ := h
  rfl

theorem Writes.readView_eq (h : Writes i s u) (hi : IsQuiet i = true ∨ i = .berr) : u.readView = s.readView := by
  cases h with
  | cld | mld | berr => rfl
  | cdec | cvt | cvp | rst => simp [IsQuiet] at hi

/-- A quiet command leaves the view, and so does a failing one: of those that complete only `BERR` answers an error. -/
theorem Completes.readView_eq {o : Host.Outcome State Fault Refusal} (h : Completes i s o) (ho : o = .next t)
    (hq : IsQuiet i = true ∨ ∃ r, t.answer = some r ∧ r.resp ≠ 0#4) : t.readView = s.readView := by
  cases h with
  | nop | rdc | rdr => exact (answered_of_succeed ho).readView_eq
  | rds => exact (answered_of_succeedUnrecorded ho).readView_eq
  | berr hu => exact (answered_of_raise ho).readView_eq.trans (hu.readView_eq (.inr rfl))
  | writes hu =>
    have hquiet : IsQuiet i = true := hq.resolve_right (by simp [answer_ok_of_succeed ho])
    exact (answered_of_succeed ho).readView_eq.trans (hu.readView_eq (.inl hquiet))

theorem QuietStep.readView_eq (h : QuietStep s t) : t.readView = s.readView := by
  obtain ⟨hstep, w, rest, hs, hq⟩ := h
  rw [step_command hs] at hstep
  obtain ⟨e, he⟩ | ⟨i, hd, hc⟩ := perform_cases w { s with stream := rest }
  · exact (answered_of_raise (he.symm.trans hstep)).readView_eq
  · refine hc.readView_eq hstep (hq.imp_left ?_)
    rintro ⟨j, hj, hquiet⟩
    cases hd.symm.trans hj
    exact hquiet

end

/-- Settles O44, by induction on the run: each quiet step leaves the registers a read depends on. -/
theorem readsRepeat : Obligations.ReadsRepeat := by
  intro s t hrun
  have hview : s.readView = t.readView := by
    induction hrun with
    | refl => rfl
    | tail _ hstep ih => exact ih.trans hstep.readView_eq.symm
  exact read_answer_eq hview

end Sys2Proof.Machine
end

section
/-! PROOF. The commands `RDC`, `RDR`, `RDS` and `NOP` (42_control.md R170 to R175): their words, their answers and their
errors. -/

namespace Sys2Proof

/-- The word of a command decodes to it, unless its index is past the limit. -/
theorem decode_encode (i : Instr) : decode (encode i) = if i.wellFormed then .ok i else .error .badIndex := by
  cases i with
  | cld idx data =>
    rw [decode_encode_cld]
    simp only [Instr.wellFormed, decide_eq_true_eq, ← not_lt, ite_not]
  | mld idx data =>
    rw [decode_encode_mld]
    simp only [Instr.wellFormed, decide_eq_true_eq, ← not_lt, ite_not]
  | rdc idx =>
    rw [decode_of_indexed_row (op := .rdc) (Laws.EncodedRow.rdc idx).1 (by decide)]
    simp only [encode, idxField_commandWord, Opcode.limit, Opcode.select, Instr.wellFormed, decide_eq_true_eq, ← not_lt,
      ite_not]
  | rdr idx =>
    rw [decode_of_indexed_row (op := .rdr) (Laws.EncodedRow.rdr idx).1 (by decide)]
    simp only [encode, idxField_commandWord, Opcode.limit, Opcode.select, Instr.wellFormed, decide_eq_true_eq, ← not_lt,
      ite_not]
  | nop | cdec | cvt | cvp | rds | berr | rst => decide

/-- A word of an opcode with an index alone is illegal with anything beside it (30_encoding.md R75). -/
theorem decode_of_form_i_ne_zero {op : Opcode} {idx rsv data : Byte} (hf : op.form = .i) (h : rsv ≠ 0#8 ∨ data ≠ 0#8) :
    decode (commandWord op.byte idx rsv data) = .error .illegalCmd := by
  refine decode_of_no_row ((Opcode.forall_matchesWord_eq_false_iff (opField_commandWord ..)).mpr ?_)
  simpa [hf, Form.violated] using h

end Sys2Proof

namespace Sys2Proof.Machine

/-- Settles O18: `NOP` succeeds in the state it finds; its opcode has the one word. -/
theorem nopOnlyClearsLastErr : Obligations.NopOnlyClearsLastErr := fun s =>
  ⟨succeed_succeeds 0#64 s, by decide, fun _ hop hw => step_present_fails (decode_of_ne_rowMatch (op := .nop) rfl hop hw) s⟩

/-- Settles O26: `RDS` answers the zero-extended `STATUS` and records nothing; its opcode has the one word. -/
theorem rdsReadsStatus : Obligations.RdsReadsStatus := by
  intro s
  have hreset : zext64 (status State.reset) = 0#64 := by decide
  refine ⟨succeedUnrecorded_succeeds _ s, ?_, by decide,
    fun _ hop hw => step_present_fails (decode_of_ne_rowMatch (op := .rds) rfl hop hw) s⟩
  exact hreset ▸ succeedUnrecorded_succeeds _ State.reset

/-! ### `RDC` and `RDR` -/

/-- The coefficients in the order of their indices, as `RDC` answers them. -/
theorem coefAt_map_sext64 (c : Coeffs) (n : Nat) : (coefAt c n).map sext64 =
    [c.c0.signExtend 64, c.c1.signExtend 64, c.c00.signExtend 64, c.c10.signExtend 64, c.c01.signExtend 64,
      c.c11.signExtend 64, c.c20.signExtend 64, c.c21.signExtend 64, c.c30.signExtend 64][n]? := by
  match n with
  | 0 | 1 | 2 | 3 | 4 | 5 | 6 | 7 | 8 | _ + 9 => rfl

theorem exists_coefAt_eq_some {n : Nat} (h : n < 9) (c : Coeffs) : ∃ v, coefAt c n = some v :=
  Option.isSome_iff_exists.mp (by simpa [coefAt_isSome])

theorem resultAt_eq_getElem? (s : State) (n : Nat) : resultAt s n = [s.temp, s.pres, s.tsc, s.psc][n]? := by
  match n with
  | 0 | 1 | 2 | 3 | _ + 4 => rfl

section
variable {idx : Byte} {s : State}

theorem exec_rdc_of_coefAt {v : Int} (hv : coefAt s.coef idx.toNat = some v) (hcal : s.calValid = true) :
    exec (.rdc idx) s = succeed (sext64 v) s := by
  simp [exec, execRdc, hv, hcal]

theorem rdc_fails_of_uncalibrated (hidx : idx.toNat < 9) (hcal : s.calValid = false) : Fails (exec (.rdc idx) s) 5#4 s := by
  obtain ⟨v, hv⟩ := exists_coefAt_eq_some hidx s.coef
  have he : exec (.rdc idx) s = raise .notCalibrated s := by simp [exec, execRdc, hv, hcal]
  exact he ▸ raise_fails .notCalibrated s

theorem exec_rdr_of_lt (hidx : idx.toNat < 4) :
    exec (.rdr idx) s = succeed ([s.temp, s.pres, s.tsc, s.psc].getD idx.toNat 0#64) s := by
  have hv : resultAt s idx.toNat = some ([s.temp, s.pres, s.tsc, s.psc].getD idx.toNat 0#64) := by
    simp [resultAt_eq_getElem?, hidx]
  rw [exec, execRdr, hv]

end

/-- Settles O24: the selected coefficient sign-extended is an entry of the list (`coefAt_map_sext64`); the errors are the
calibration check and the decoder's rejections. -/
theorem rdcReadsOneCoefficient : Obligations.RdcReadsOneCoefficient := by
  intro s idx rsv data
  have hd : decode (commandWord 0x06#8 idx 0#8 0#8) = _ := decode_encode (.rdc idx)
  refine ⟨fun hidx hcal => ?read, rdc_fails_of_uncalibrated, fun hidx => ?word,
    fun h => step_present_fails (decode_of_form_i_ne_zero (op := .rdc) rfl h) s, fun hidx => ?past⟩
  case read =>
    obtain ⟨v, hv⟩ := exists_coefAt_eq_some hidx s.coef
    rw [List.getD_eq_getElem?_getD, ← coefAt_map_sext64, exec_rdc_of_coefAt hv hcal, hv]
    exact succeed_succeeds _ s
  case word => exact hd.trans (if_pos (decide_eq_true hidx))
  case past => exact step_present_fails (hd.trans (if_neg (by simpa [Instr.wellFormed] using hidx))) s

/-- Settles O25: the selected register is an entry of the list (`exec_rdr_of_lt`), and all four are 0 at reset; the errors are
the decoder's rejections. -/
theorem rdrReadsOneResult : Obligations.RdrReadsOneResult := by
  intro s idx rsv data
  have hd : decode (commandWord 0x07#8 idx 0#8 0#8) = _ := decode_encode (.rdr idx)
  refine ⟨fun hidx => ⟨?read, ?reset, ?word⟩,
    fun h => step_present_fails (decode_of_form_i_ne_zero (op := .rdr) rfl h) s, fun hidx => ?past⟩
  case read => exact exec_rdr_of_lt hidx ▸ succeed_succeeds _ s
  case reset =>
    have hzero : (List.replicate 4 0#64).getD idx.toNat 0#64 = 0#64 := List.getD_replicate _ hidx
    have he := exec_rdr_of_lt (s := State.reset) hidx
    exact he.trans (congrArg (succeed · _) hzero) ▸ succeed_succeeds _ State.reset
  case word => exact hd.trans (if_pos (decide_eq_true hidx))
  case past => exact step_present_fails (hd.trans (if_neg (by simpa [Instr.wellFormed] using hidx))) s

/-! ### `dout` -/

theorem Completes.dout_eq_zero {i : Instr} {s t : State} {o : Host.Outcome State Fault Refusal} {r : Response}
    (h : Completes i s o) (ho : o = .next t) (ha : t.answer = some r)
    (hread : ¬ (r.resp = 0#4 ∧ opField (encode i) ∈ [6#8, 7#8, 8#8])) : r.dout = 0#64 := by
  cases h with
  | nop | writes =>
    cases (answer_ok_of_succeed ho).symm.trans ha
    rfl
  | berr =>
    cases (answer_of_raise ho).symm.trans ha
    rfl
  | rdc | rdr =>
    cases (answer_ok_of_succeed ho).symm.trans ha
    simp [encode] at hread
  | rds =>
    rw [succeedUnrecorded_next ho] at ha
    cases ha
    simp [encode] at hread

/-- Settles O13: an error is raised with 0, and of the commands that complete only the three reads answer a value. -/
theorem dataOnlyFromSuccessfulReads : Obligations.DataOnlyFromSuccessfulReads := by
  intro s t w r h ha hread
  rw [step_present] at h
  obtain ⟨e, he⟩ | ⟨i, hd, hc⟩ := perform_cases w s
  · cases (answer_of_raise (he.symm.trans h)).symm.trans ha
    rfl
  · rw [← encode_of_decode hd] at hread
    exact hc.dout_eq_zero h ha hread

end Sys2Proof.Machine
end

section
/-! PROOF. The commands `BERR` and `RST` (42_control.md R176, R177): their words, their effect, and the sticky bits. -/

namespace Sys2Proof.Machine

theorem noCoef_getElem (k : Fin 18) : noCoef[k] = false := by
  simp [noCoef]

theorem cdec_fails_of_noCoef {s : State} (hcal : s.calValid = false) (h : s.cbv = noCoef) : Fails (exec .cdec s) 3#4 s := by
  have hc : coefComplete s = false := by
    rw [coefComplete, h]
    rfl
  exact exec_cdec_of_incomplete hcal hc ▸ raise_fails .coefIncomplete s

/-- Settles O28: `BERR` raises its code in the state with the valid bits in progress cleared, in which an uncalibrated block
has no coefficient byte left to decode. -/
theorem berrAbandonsWhatWasInProgress : Obligations.BerrAbandonsWhatWasInProgress := by
  intro s
  refine ⟨?effect, by decide, fun _ hop hw => step_present_fails (decode_of_ne_rowMatch (op := .berr) rfl hop hw) s⟩
  obtain ⟨t, he, ha, hregs⟩ : Fails (exec .berr s) 8#4 _ := raise_fails .busError _
  have hcbv : t.cbv = if s.calValid then s.cbv else noCoef := congrArg State.cbv hregs
  have hrbv : t.rbv = noRaw := congrArg State.rbv hregs
  refine ⟨t, he, ha, ?_, fun k => ?_, fun k => ?_, fun hcal => ?_⟩
  · rw [hregs, hcbv, hrbv]
    rfl
  · rw [hrbv, noRaw_getElem]
  · rw [hcbv]
    split
    · rfl
    · exact noCoef_getElem k
  · have htcal : t.calValid = false := (congrArg State.calValid hregs).trans hcal
    exact cdec_fails_of_noCoef htcal (by simpa [hcal] using hcbv)

/-! ### The sticky bits -/

/-- From `s` to `t` no sticky bit is cleared (42_control.md R177). -/
structure KeepsSticky (s t : State) : Prop where
  calValid : s.calValid = true → t.calValid = true
  tscValid : s.tscValid = true → t.tscValid = true
  prsValid : s.prsValid = true → t.prsValid = true
  firstErr : s.firstErr ≠ 0#4 → t.firstErr = s.firstErr

section
variable {i : Instr} {s t u : State}

theorem Writes.keepsSticky (h : Writes i s u) (hi : i ≠ .rst) : KeepsSticky s u := by
  cases h with
  | cld | mld | berr => exact ⟨id, id, id, fun _ => rfl⟩
  | cdec => exact ⟨fun _ => rfl, id, id, fun _ => rfl⟩
  | cvt => exact ⟨id, fun _ => rfl, id, fun _ => rfl⟩
  | cvp => exact ⟨id, id, fun _ => rfl, fun _ => rfl⟩
  | rst => exact absurd rfl hi

theorem KeepsSticky.record_right (h : KeepsSticky s u) (resp : RespCode) : KeepsSticky s (record resp u) where
  calValid := h.calValid
  tscValid := h.tscValid
  prsValid := h.prsValid
  firstErr h0 := by simp [h.firstErr h0, h0]

theorem KeepsSticky.reply_right (h : KeepsSticky s u) (resp : RespCode) (dout : BitVec 64) :
    KeepsSticky s (reply resp dout u) :=
  ⟨h.calValid, h.tscValid, h.prsValid, h.firstErr⟩

theorem KeepsSticky.refl (s : State) : KeepsSticky s s := ⟨id, id, id, fun _ => rfl⟩

theorem Completes.keepsSticky {o : Host.Outcome State Fault Refusal} (h : Completes i s o) (ho : o = .next t)
    (hi : i ≠ .rst) : KeepsSticky s t := by
  cases h with
  | nop | rdc | rdr => exact succeed_next ho ▸ ((KeepsSticky.refl s).record_right _).reply_right _ _
  | rds => exact succeedUnrecorded_next ho ▸ (KeepsSticky.refl s).reply_right _ _
  | berr hu => exact raise_next ho ▸ ((hu.keepsSticky hi).record_right _).reply_right _ _
  | writes hu => exact succeed_next ho ▸ ((hu.keepsSticky hi).record_right _).reply_right _ _

theorem perform_keepsSticky {w : CmdWord} (h : perform w s = .next t) (hw : w ≠ 0x0A000000#32) : KeepsSticky s t := by
  obtain ⟨e, he⟩ | ⟨i, hd, hc⟩ := perform_cases w s
  · exact raise_next (he.symm.trans h) ▸ ((KeepsSticky.refl s).record_right _).reply_right _ _
  · refine hc.keepsSticky h ?_
    rintro rfl
    exact hw (encode_of_decode hd).symm

theorem KeepsSticky.not_cleared (h : KeepsSticky s t) :
    ¬ ((s.calValid = true ∧ t.calValid = false) ∨ (s.tscValid = true ∧ t.tscValid = false) ∨
      (s.prsValid = true ∧ t.prsValid = false) ∨ (s.firstErr ≠ 0#4 ∧ t.firstErr ≠ s.firstErr)) := by
  rintro (⟨hs, ht⟩ | ⟨hs, ht⟩ | ⟨hs, ht⟩ | ⟨hs, ht⟩)
  · exact Bool.false_ne_true (ht.symm.trans (h.calValid hs))
  · exact Bool.false_ne_true (ht.symm.trans (h.tscValid hs))
  · exact Bool.false_ne_true (ht.symm.trans (h.prsValid hs))
  · exact ht (h.firstErr hs)

end

/-- Settles O29: the event and the word set the registers of `State.reset`; every other word keeps the sticky bits
(`perform_keepsSticky`). -/
theorem rstResetsLikeTheInput : Obligations.RstResetsLikeTheInput := by
  intro s
  refine ⟨succeed_succeeds 0#64 (resetRegisters s), fun rest t hs h => ?event, by decide,
    fun _ hop hw => step_present_fails (decode_of_ne_rowMatch (op := .rst) rfl hop hw) s, fun t h hcleared => ?only⟩
  case event =>
    rw [step_rst hs] at h
    rw [takeReset_next h]
    rfl
  case only =>
    cases hs : s.stream with
    | nil => simp [step, nextEvent, hs] at h
    | cons e rest =>
      refine ⟨rest, ?_⟩
      cases e with
      | rst => exact .inl rfl
      | command w =>
        rw [step_command hs] at h
        by_contra! hne
        have hw : w ≠ 0x0A000000#32 := by
          rintro rfl
          exact hne.2 rfl
        exact (perform_keepsSticky h hw).not_cleared hcleared

end Sys2Proof.Machine
end

section
/-! PROOF. Every step is a next state, and what it answers (60_exceptions.md R204, R216): `responseCode` takes the checks in the
order in which the decoder and then the command's meaning make them. -/

namespace Sys2Proof

/-- A word in a row of the opcode map is the word of a command, its index checked or not. -/
theorem no_row_or_eq_encode (w : CmdWord) : (∀ p : Opcode, p.matchesWord w = false) ∨ ∃ i, encode i = w := by
  by_cases h : ∃ p : Opcode, p.matchesWord w = true
  · obtain ⟨op, hrow⟩ := h
    obtain ⟨hop, hrsv, hform⟩ := Opcode.matchesWord_iff.mp hrow
    refine .inr ⟨op.select (idxField w) (dataField w), ?_⟩
    rw [encode_select hform, ← hop, ← hrsv, commandWord_fields]
  · exact .inl (by simpa using h)

end Sys2Proof

namespace Sys2Proof.Machine

/-- Settles O8: with an empty stream there is no next event to take. -/
theorem noStepWhenHostStops : Obligations.NoStepWhenHostStops := by
  intro s hs
  simp [step, nextEvent, hs]

/-- An index past its limit is `BAD_INDEX` to the decoder and to the command's meaning alike (log entry 7). -/
theorem perform_encode (i : Instr) (s : State) : perform (encode i) s = exec i s := by
  have hd := decode_encode i
  cases hi : i.wellFormed with
  | true => exact perform_of_decode (by simpa [hi] using hd) s
  | false => simp [perform, hd, hi, rejectCode, exec_of_not_wellFormed hi]

theorem ErrorCode.code_le (e : ErrorCode) : e.code.toNat ≤ 8 := by
  cases e <;> decide

/-- The outcome is a next state, answered with the code, which is one of 60_exceptions.md R201. -/
def Answers (o : Host.Outcome State Fault Refusal) (code : RespCode) : Prop :=
  code.toNat ≤ 8 ∧ ∃ t r, o = .next t ∧ t.answer = some r ∧ r.resp = code

theorem raise_answers {e : ErrorCode} {s : State} {code : RespCode} (h : code = e.code) : Answers (raise e s) code :=
  ⟨h ▸ e.code_le, _, _, rfl, rfl, h.symm⟩

theorem succeed_answers {dout : BitVec 64} {s : State} {code : RespCode} (h : code = 0#4) :
    Answers (succeed dout s) code :=
  ⟨h ▸ Nat.zero_le 8, _, _, rfl, rfl, h.symm⟩

theorem succeedUnrecorded_answers {dout : BitVec 64} {s : State} {code : RespCode} (h : code = 0#4) :
    Answers (succeedUnrecorded dout s) code :=
  ⟨h ▸ Nat.zero_le 8, _, _, rfl, rfl, h.symm⟩

/-! ### The code the spec gives -/

section
variable {s : State}

theorem coefComplete_eq_false_iff : coefComplete s = false ↔ ∃ k : Fin 18, s.cbv[k] = false := by
  simp only [← Bool.not_eq_true, coefComplete_iff, not_forall]

theorem rawComplete_eq_false_iff : rawComplete s = false ↔ ∃ k : Fin 3, s.rbv[k] = false := by
  simp only [← Bool.not_eq_true, rawComplete_iff, not_forall]

theorem coefAt_eq_none_iff {c : Coeffs} {n : Nat} : coefAt c n = none ↔ 9 ≤ n := by
  rw [← Option.not_isSome_iff_eq_none, coefAt_isSome, decide_eq_true_iff, not_lt]

theorem resultAt_eq_none_iff {n : Nat} : resultAt s n = none ↔ 4 ≤ n := by
  rw [← Option.not_isSome_iff_eq_none, resultAt_isSome, decide_eq_true_iff, not_lt]

theorem responseCode_of_no_row {w : CmdWord} (h : ∀ p : Opcode, p.matchesWord w = false) : responseCode w s = 1#4 := by
  obtain h10 | hrsv | hz | hi := (Opcode.forall_matchesWord_eq_false_iff_fields w).mp h
  · simp [responseCode, h10]
  · simp [responseCode, hrsv]
  · simp only [responseCode, if_pos hz, ite_self]
  · simp only [responseCode, if_pos hi, ite_self]

variable (idx data : Byte)

theorem responseCode_cld : responseCode (encode (.cld idx data)) s = if 18 ≤ idx.toNat then 2#4 else 0#4 := by
  simp [responseCode, encode]

theorem responseCode_mld : responseCode (encode (.mld idx data)) s = if 3 ≤ idx.toNat then 2#4 else 0#4 := by
  simp [responseCode, encode]

theorem responseCode_rdc : responseCode (encode (.rdc idx)) s =
    if coefAt s.coef idx.toNat = none then 2#4 else if s.calValid = false then 5#4 else 0#4 := by
  simp [responseCode, encode, coefAt_eq_none_iff]

theorem responseCode_rdr : responseCode (encode (.rdr idx)) s = if resultAt s idx.toNat = none then 2#4 else 0#4 := by
  simp [responseCode, encode, resultAt_eq_none_iff]

theorem responseCode_cdec : responseCode (encode .cdec) s =
    if s.calValid = true then 4#4 else if coefComplete s = false then 3#4 else 0#4 := by
  simp [responseCode, encode, coefComplete_eq_false_iff]

theorem responseCode_cvt : responseCode (encode .cvt) s =
    if s.calValid = false then 5#4 else if rawComplete s = false then 6#4 else 0#4 := by
  simp [responseCode, encode, rawComplete_eq_false_iff]

theorem responseCode_cvp : responseCode (encode .cvp) s =
    if s.calValid = false then 5#4 else if s.tscValid = false then 7#4
    else if rawComplete s = false then 6#4 else 0#4 := by
  simp [responseCode, encode, rawComplete_eq_false_iff]

end

/-! ### The code the block answers -/

theorem exec_answers (i : Instr) (s : State) : Answers (exec i s) (responseCode (encode i) s) := by
  cases i with
  | nop => exact succeed_answers rfl
  | cld idx data =>
    rw [responseCode_cld]
    obtain ⟨hidx, he⟩ | ⟨hidx, he⟩ := execCld_cases idx data s <;> rw [exec, he]
    · exact succeed_answers (if_neg hidx.not_ge)
    · exact raise_answers (if_pos hidx)
  | cdec =>
    rw [responseCode_cdec]
    obtain ⟨hcal, he⟩ | ⟨hcal, hbytes, he⟩ | ⟨hcal, hbytes, he⟩ := execCdec_cases s <;> rw [exec, he]
    · exact raise_answers (by simp [hcal, ErrorCode.code])
    · exact raise_answers (by simp [hcal, hbytes, ErrorCode.code])
    · exact succeed_answers (by simp [hcal, hbytes])
  | mld idx data =>
    rw [responseCode_mld]
    obtain ⟨hidx, he⟩ | ⟨hidx, he⟩ := execMld_cases idx data s <;> rw [exec, he]
    · exact succeed_answers (if_neg hidx.not_ge)
    · exact raise_answers (if_pos hidx)
  | cvt =>
    rw [responseCode_cvt]
    obtain ⟨hcal, he⟩ | ⟨hcal, hraw, he⟩ | ⟨hcal, hraw, he⟩ := execCvt_cases s <;> rw [exec, he]
    · exact raise_answers (by simp [hcal, ErrorCode.code])
    · exact raise_answers (by simp [hcal, hraw, ErrorCode.code])
    · exact succeed_answers (by simp [hcal, hraw])
  | cvp =>
    rw [responseCode_cvp]
    obtain ⟨hcal, he⟩ | ⟨hcal, htsc, he⟩ | ⟨hcal, htsc, hraw, he⟩ | ⟨hcal, htsc, hraw, he⟩ := execCvp_cases s <;>
      rw [exec, he]
    · exact raise_answers (by simp [hcal, ErrorCode.code])
    · exact raise_answers (by simp [hcal, htsc, ErrorCode.code])
    · exact raise_answers (by simp [hcal, htsc, hraw, ErrorCode.code])
    · exact succeed_answers (by simp [hcal, htsc, hraw])
  | rdc idx =>
    rw [responseCode_rdc]
    obtain ⟨hv, he⟩ | ⟨v, hv, hcal, he⟩ | ⟨v, hv, hcal, he⟩ := execRdc_cases idx s <;> rw [exec, he]
    · exact raise_answers (if_pos hv)
    · exact raise_answers (by simp [hv, hcal, ErrorCode.code])
    · exact succeed_answers (by simp [hv, hcal])
  | rdr idx =>
    rw [responseCode_rdr]
    obtain ⟨hv, he⟩ | ⟨v, hv, he⟩ := execRdr_cases idx s <;> rw [exec, he]
    · exact raise_answers (if_pos hv)
    · exact succeed_answers (by simp [hv])
  | rds => exact succeedUnrecorded_answers rfl
  | berr => exact raise_answers rfl
  | rst => exact succeed_answers rfl

theorem perform_answers (w : CmdWord) (s : State) : Answers (perform w s) (responseCode w s) := by
  obtain hrow | ⟨i, rfl⟩ := no_row_or_eq_encode w
  · rw [perform, decode_of_no_row hrow]
    exact raise_answers (responseCode_of_no_row hrow)
  · rw [perform_encode]
    exact exec_answers i s

/-- Settles O10: a word outside the opcode map is illegal by `responseCode`'s first four checks; any other is a command's, and
the command makes the remaining checks in their order (`exec_answers`). -/
theorem everyWordGetsItsFirstFailingCode : Obligations.EveryWordGetsItsFirstFailingCode := fun s w =>
  perform_answers w s

theorem takeEvent_next (e : HostEvent) (s : State) : ∃ t, takeEvent e s = .next t := by
  cases e with
  | command w =>
    obtain ⟨-, t, _, ht, -⟩ := perform_answers w s
    exact ⟨t, ht⟩
  | rst => exact ⟨_, rfl⟩

/-- Settles O9: a word is performed and answered (`perform_answers`), and `rst` resets. -/
theorem blockNeverHangs : Obligations.BlockNeverHangs := by
  refine ⟨fun s w => ?word, fun s e rest hs => ?event⟩
  case word =>
    obtain ⟨-, t, r, ht, ha, -⟩ := perform_answers w s
    exact ⟨t, r, ht, ha⟩
  case event =>
    obtain ⟨t, ht⟩ := takeEvent_next e { s with stream := rest }
    exact ⟨t, by simpa [step, nextEvent, hs] using ht⟩

end Sys2Proof.Machine
end

section
/-! PROOF. Error recording, and what a failing command leaves unchanged (60_exceptions.md R200, R203). -/

namespace Sys2Proof.Machine

/-- The error registers of `t` are those of `s` after the recording of the code `t` answers (60_exceptions.md R203). -/
def RecordsAnswer (s t : State) : Prop :=
  ∀ r, t.answer = some r → t.lastErr = r.resp ∧
    t.firstErr = if r.resp ≠ 0#4 ∧ s.firstErr = 0#4 then r.resp else s.firstErr

section
variable {i : Instr} {s t u : State}

theorem recordsAnswer_of_raise {e : ErrorCode} (h : raise e u = .next t) (hu : u.firstErr = s.firstErr) :
    RecordsAnswer s t := by
  intro r ha
  rw [raise_next h] at ha ⊢
  cases ha
  exact ⟨rfl, hu ▸ rfl⟩

theorem recordsAnswer_of_succeed {dout : BitVec 64} (h : succeed dout u = .next t) (hu : u.firstErr = s.firstErr) :
    RecordsAnswer s t := by
  intro r ha
  rw [succeed_next h] at ha ⊢
  cases ha
  exact ⟨rfl, hu ▸ rfl⟩

theorem Writes.firstErr_eq (h : Writes i s u) (hi : i ≠ .rst) : u.firstErr = s.firstErr := by
  cases h with
  | cld | cdec | mld | cvt | cvp | berr => rfl
  | rst => exact absurd rfl hi

variable {o : Host.Outcome State Fault Refusal}

theorem Completes.recordsAnswer (h : Completes i s o) (ho : o = .next t) (hrds : i ≠ .rds) (hrst : i ≠ .rst) :
    RecordsAnswer s t := by
  cases h with
  | nop | rdc | rdr => exact recordsAnswer_of_succeed ho rfl
  | rds => exact absurd rfl hrds
  | berr hu => exact recordsAnswer_of_raise ho (hu.firstErr_eq hrst)
  | writes hu => exact recordsAnswer_of_succeed ho (hu.firstErr_eq hrst)

theorem perform_recordsAnswer {w : CmdWord} (h : perform w s = .next t) (hrds : w ≠ encode .rds)
    (hrst : w ≠ encode .rst) : RecordsAnswer s t := by
  obtain ⟨e, he⟩ | ⟨i, hd, hc⟩ := perform_cases w s
  · exact recordsAnswer_of_raise (he.symm.trans h) rfl
  · rw [← encode_of_decode hd] at hrds hrst
    exact hc.recordsAnswer h (ne_of_apply_ne encode hrds) (ne_of_apply_ne encode hrst)

theorem rst_clears_errors (h : step (s.present 0x0A000000#32) = .next t) : t.lastErr = 0#4 ∧ t.firstErr = 0#4 := by
  have hd : decode 0x0A000000#32 = .ok .rst := by decide
  rw [step_present, perform_of_decode hd] at h
  rw [succeed_next h]
  exact ⟨rfl, rfl⟩

/-- A command that passes its checks answers an error only to report one from the host. -/
theorem Completes.eq_berr (h : Completes i s o) (ho : o = .next t) {r : Response} (ha : t.answer = some r)
    (hr : r.resp ≠ 0#4) : i = .berr := by
  cases h with
  | nop | rdc | rdr | writes =>
    cases (answer_ok_of_succeed ho).symm.trans ha
    exact absurd rfl hr
  | rds =>
    rw [succeedUnrecorded_next ho] at ha
    cases ha
    exact absurd rfl hr
  | berr => rfl

end

/-- Settles O11: `RDS` records nothing (`rds_keeps_errors`) and `RST` resets; of the other commands none writes `FIRST_ERR`
before the recording (`Writes.firstErr_eq`). -/
theorem everyCommandRecordsItsCode : Obligations.EveryCommandRecordsItsCode := by
  intro s t w r h ha
  refine ⟨?_, ?_, fun hrds hrst => perform_recordsAnswer h hrds hrst r ha⟩
  · rintro rfl
    exact rds_keeps_errors h
  · rintro rfl
    exact rst_clears_errors h

/-- Settles O12: an error is raised in the state before the command, unless the command is `BERR` (`Completes.eq_berr`). -/
theorem failingCommandsChangeNothingElse : Obligations.FailingCommandsChangeNothingElse := by
  intro s t w r h ha hr hw
  rw [step_present] at h ⊢
  obtain ⟨e, he⟩ | ⟨i, hd, hc⟩ := perform_cases w s
  · cases (answer_of_raise (he.symm.trans h)).symm.trans ha
    exact he ▸ raise_fails e s
  · obtain rfl := hc.eq_berr h ha hr
    exact absurd (encode_of_decode hd).symm hw

end Sys2Proof.Machine
end

section
/-! PROOF. The host's sequences (70_reset_and_hazards.md R240 to R242). A sequence whose bus transaction fails before it issues
a command is a run of loads and then `BERR`; one whose transactions all succeed loads its bytes and issues its command. -/

namespace Sys2Proof.Machine

/-- The host presents the word of a command. -/
def commandEvent (i : Instr) : HostEvent := .command (encode i)

theorem step_commandEvent {s : State} {i : Instr} {rest : List HostEvent} (hs : s.stream = commandEvent i :: rest) :
    step s = exec i { s with stream := rest } := by
  rw [step_command hs, perform_encode]

/-! ### A sequence that fails -/

/-- Events that are quiet commands and then `BERR`. -/
inductive QuietThenBerr : List HostEvent → Prop where
  | berr : QuietThenBerr [commandEvent .berr]
  | cons {i : Instr} {events : List HostEvent} (hi : IsQuiet i = true) (h : QuietThenBerr events) :
      QuietThenBerr (commandEvent i :: events)

/-- How many bus transactions a sequence makes before the first command it issues itself. -/
def transactionsBeforeIssue : List HostAction → Nat
  | [] => 0
  | .issue _ :: _ => 0
  | .wait _ :: rest => transactionsBeforeIssue rest
  | .busWrite _ _ :: rest => transactionsBeforeIssue rest + 1
  | .readCld _ _ :: rest => transactionsBeforeIssue rest + 1
  | .readMld _ _ :: rest => transactionsBeforeIssue rest + 1

/-- Up to the failed transaction the host presents only loads. -/
theorem quietThenBerr_hostEvents {m : List HostAction} {good : List Byte} (more : List BusAnswer)
    (h : good.length < transactionsBeforeIssue m) :
    QuietThenBerr (hostEvents m (good.map .done ++ .failed :: more)) := by
  induction m generalizing good with
  | nil => exact absurd h (Nat.not_lt_zero _)
  | cons a m ih =>
    cases a with
    | issue i => exact absurd h (Nat.not_lt_zero _)
    | wait time => exact ih h
    | busWrite reg value =>
      cases good with
      | nil => exact .berr
      | cons b good => exact ih (Nat.lt_of_succ_lt_succ h)
    | readCld reg k | readMld reg k =>
      cases good with
      | nil => exact .berr
      | cons b good => exact .cons rfl (ih (Nat.lt_of_succ_lt_succ h))

theorem step_quiet {s : State} {i : Instr} {rest : List HostEvent} (hi : IsQuiet i = true)
    (hs : s.stream = commandEvent i :: rest) :
    ∃ t, step s = .next t ∧ t.readView = s.readView ∧ t.stream = rest := by
  obtain ⟨-, t, _, ht, -⟩ := exec_answers i { s with stream := rest }
  refine ⟨t, (step_commandEvent hs).trans ht, ?_, commandsLeaveTheStream i _ t ht⟩
  obtain ⟨e, he⟩ | hc := exec_cases i { s with stream := rest }
  · exact (answered_of_raise (he.symm.trans ht)).readView_eq
  · exact hc.readView_eq ht (.inl hi)

/-- What `t` is after an abandoned sequence from `s` (42_control.md R176). -/
structure AbandonedFrom (s t : State) : Prop where
  readView : t.readView = s.readView
  rbv : t.rbv = noRaw
  cbv : t.calValid = false → t.cbv = noCoef
  answer : t.answer = some { resp := 8#4, dout := 0#64 }

theorem QuietThenBerr.run {events : List HostEvent} (h : QuietThenBerr events) {s : State} (hs : s.stream = events) :
    ∃ t : State, Sys2Proof.core.run events.length s = .next t ∧ AbandonedFrom s t := by
  induction h generalizing s with
  | berr =>
    refine ⟨_, run_succ (step_commandEvent hs) 0, rfl, rfl, fun hcal => ?_, rfl⟩
    exact if_neg (ne_true_of_eq_false hcal)
  | cons hi _ ih =>
    obtain ⟨u, hstep, hview, hu⟩ := step_quiet hi hs
    obtain ⟨t, hrun, ht⟩ := ih hu
    exact ⟨t, (run_succ hstep _).trans hrun, { ht with readView := ht.readView.trans hview }⟩

/-- A sequence that fails before it issues a command is abandoned. -/
theorem run_failed_sequence {m : List HostAction} {good : List Byte} {more : List BusAnswer} {s : State}
    (h : good.length < transactionsBeforeIssue m)
    (hs : s.stream = hostEvents m (good.map .done ++ .failed :: more)) :
    ∃ t : State, Sys2Proof.core.run s.stream.length s = .next t ∧ AbandonedFrom s t :=
  hs ▸ (quietThenBerr_hostEvents more h).run hs

/-! ### Construction -/

/-- The loads of construction: each byte at its index, in order. -/
def coefLoads (bytes : Vector Byte 18) : List (Fin 18 × Byte) := (List.finRange 18).map fun k => (k, bytes[k])

theorem lookup_reverse_coefLoads (bytes : Vector Byte 18) (k : Fin 18) :
    (coefLoads bytes).reverse.lookup k = some bytes[k] := by
  rw [coefLoads, ← List.map_reverse]
  exact List.lookup_graph _ (by simp)

theorem map_readCoef_coefLoads (bytes : Vector Byte 18) :
    (coefLoads bytes).map (fun l => readCoef l.1) = (List.range 18).map readCoef := by
  rw [coefLoads, List.map_map, ← List.map_coe_finRange_eq_range, List.map_map]
  rfl

theorem map_snd_coefLoads (bytes : Vector Byte 18) : (coefLoads bytes).map Prod.snd = bytes.toList :=
  List.ext_getElem (by simp [coefLoads]) (by simp [coefLoads])

/-- Reading coefficient bytes presents their loads. -/
theorem hostEvents_readCoef (loads : List (Fin 18 × Byte)) (m : List HostAction) (answers : List BusAnswer) :
    hostEvents (loads.map (fun l => readCoef l.1) ++ m) ((loads.map Prod.snd).map .done ++ answers) =
      loads.map loadEvent ++ hostEvents m answers := by
  induction loads with
  | nil => rfl
  | cons l loads ih => exact congrArg (loadEvent l :: ·) ih

theorem hostEvents_construct (x y z : Byte) (bytes : Vector Byte 18) :
    hostEvents construct (([x, y, z] ++ bytes.toList).map .done) =
      (coefLoads bytes).map loadEvent ++ [commandEvent .cdec] := by
  have h := hostEvents_readCoef (coefLoads bytes) [.issue .cdec] []
  rw [map_readCoef_coefLoads, map_snd_coefLoads, List.append_nil] at h
  exact h

/-- Settles O45: the successful construction is one of the loads of `loadOrderDoesNotMatter`; a failed one is abandoned, which
clears the bytes of an uncalibrated block. -/
theorem constructionIsAtomic : Obligations.ConstructionIsAtomic := by
  intro s hcal
  refine ⟨fun x y z bytes hs => ?success, fun good more hlen hs => ?failure⟩
  case success =>
    rw [hostEvents_construct] at hs
    obtain ⟨t, hrun, ha, hregs, -⟩ :=
      loadOrderDoesNotMatter s bytes (coefLoads bytes) [] hcal (lookup_reverse_coefLoads bytes) hs
    have hsteps : s.stream.length = (coefLoads bytes).length + 1 := by simp [hs]
    exact ⟨t, hsteps ▸ hrun, congrArg State.calValid hregs, congrArg State.coef hregs, ha⟩
  case failure =>
    obtain ⟨t, hrun, ht⟩ := run_failed_sequence (m := construct) hlen hs
    obtain ⟨hcoef, htcal, -⟩ := readView_inj.mp ht.readView
    rw [hcal] at htcal
    have hcbv := ht.cbv htcal
    refine ⟨t, hrun, htcal, hcoef, fun k => ?_, ht.answer, cdec_fails_of_noCoef htcal hcbv,
      cvt_fails_of_uncalibrated htcal, cvp_fails_of_uncalibrated htcal⟩
    rw [hcbv, noCoef_getElem]

/-! ### Measurement -/

/-- The state in which the host has these events still to present. -/
def State.presenting (events : List HostEvent) (s : State) : State := { s with stream := events }

/-- The state after a successful load of one raw byte. -/
def State.loadRaw (s : State) (k : Fin 3) (b : Byte) : State :=
  { s with
    rb := s.rb.set k b
    rbv := s.rbv.set k true
    lastErr := 0#4
    answer := some { resp := 0#4, dout := 0#64 } }

/-- The state after successful loads of all three raw bytes. -/
def State.loadAllRaw (s : State) (b0 b1 b2 : Byte) : State :=
  { s with
    rb := #v[b0, b1, b2]
    rbv := #v[true, true, true]
    lastErr := 0#4
    answer := some { resp := 0#4, dout := 0#64 } }

section
variable (s : State) (b0 b1 b2 : Byte)

theorem set_three {α : Type} (v : Vector α 3) (a b c : α) : ((v.set 0 a).set 1 b).set 2 c = #v[a, b, c] := by
  ext k hk
  interval_cases k <;> simp

theorem loadRaw_three : ((s.loadRaw 0 b0).loadRaw 1 b1).loadRaw 2 b2 = s.loadAllRaw b0 b1 b2 := by
  rw [State.loadAllRaw, ← set_three s.rb b0 b1 b2, ← set_three s.rbv true true true]
  rfl

theorem step_presenting_command (i : Instr) (rest : List HostEvent) :
    step (s.presenting (commandEvent i :: rest)) = exec i (s.presenting rest) :=
  step_commandEvent rfl

theorem step_presenting_mld (k : Fin 3) (b : Byte) (rest : List HostEvent) :
    step (s.presenting (commandEvent (.mld (BitVec.ofNat 8 k) b) :: rest)) = .next ((s.loadRaw k b).presenting rest) := by
  rw [step_presenting_command]
  fin_cases k <;> rfl

theorem core_run_one (M : Host.Core) (u : M.State) : M.run 1 u = M.step u := by
  simp only [Host.Core.run]
  cases M.step u <;> rfl

/-- Three loads put their bytes in the raw registers, where the command finds them. -/
theorem run_raw_loads (i : Instr) : Sys2Proof.core.run 4 (s.presenting
    [commandEvent (.mld 0#8 b0), commandEvent (.mld 1#8 b1), commandEvent (.mld 2#8 b2), commandEvent i]) =
      exec i ((s.loadAllRaw b0 b1 b2).presenting []) := by
  have h0 := step_presenting_mld s 0 b0 [commandEvent (.mld 1#8 b1), commandEvent (.mld 2#8 b2), commandEvent i]
  have h1 := step_presenting_mld (s.loadRaw 0 b0) 1 b1 [commandEvent (.mld 2#8 b2), commandEvent i]
  have h2 := step_presenting_mld ((s.loadRaw 0 b0).loadRaw 1 b1) 2 b2 [commandEvent i]
  refine (run_succ h0 3).trans <| (run_succ h1 2).trans <| (run_succ h2 1).trans <| (core_run_one _ _).trans ?_
  rw [loadRaw_three]
  exact step_presenting_command _ i []

end

/-- A host with the events of a successful measurement to present, its three loads and its command: the run is that command. -/
theorem run_measurement {s : State} {b0 b1 b2 : Byte} {i : Instr} (hs : s.stream =
    [commandEvent (.mld 0#8 b0), commandEvent (.mld 1#8 b1), commandEvent (.mld 2#8 b2), commandEvent i]) :
    Sys2Proof.core.run s.stream.length s = exec i ((s.loadAllRaw b0 b1 b2).presenting []) := by
  have h := run_raw_loads s b0 b1 b2 i
  rw [← hs] at h
  rw [hs]
  exact h

/-- Settles O46: the command converts the three bytes loaded before it (`run_measurement`), whose valid bits are then set; a
failed measurement is abandoned, which writes no result. -/
theorem measurementSequences : Obligations.MeasurementSequences := by
  intro s hcal
  refine ⟨fun x b0 b1 b2 hs => ?temperature, fun x b0 b1 b2 htsc hs => ?pressure, fun good more m hlen hm hs => ?failure⟩
  case temperature =>
    exact ⟨_, (run_measurement hs).trans (exec_cvt_of_complete hcal rfl), rfl, rfl, rfl, rfl, rfl, rfl⟩
  case pressure =>
    exact ⟨_, (run_measurement hs).trans (exec_cvp_of_complete hcal htsc rfl), rfl, rfl, rfl, rfl, rfl, rfl⟩
  case failure =>
    have hm4 : transactionsBeforeIssue m = 4 := by
      obtain rfl | rfl := List.mem_pair.mp hm <;> rfl
    obtain ⟨t, hrun, ht⟩ := run_failed_sequence (hm4 ▸ hlen) hs
    obtain ⟨-, -, htemp, hpres, htsc, hpsc⟩ := readView_inj.mp ht.readView
    refine ⟨t, hrun, htsc, htemp, hpsc, hpres, fun k => ?_, ht.answer⟩
    rw [ht.rbv, noRaw_getElem]

end Sys2Proof.Machine
end

section
/-! PROOF. The encoding is a bijection between well-formed commands and the words the decoder accepts (30_encoding.md R71, R74,
R76), and a word's opcode byte fixes its one row. -/

namespace Sys2Proof

/-- Settles O1: only an index past its limit keeps a command's word from decoding to it (`decode_encode`). -/
theorem decodeInvertsEncode : Obligations.DecodeInvertsEncode := by
  intro i hi
  rw [decode_encode, if_pos hi]

theorem wellFormed_of_decode {w : CmdWord} {i : Instr} (h : decode w = .ok i) : i.wellFormed = true := by
  rw [← encode_of_decode h, decode_encode] at h
  by_contra hi
  rw [if_neg hi] at h
  cases h

/-- Settles O2: the word has every field of the command's word back (`encode_of_decode`), and the word of a command that is
not well formed is rejected (`wellFormed_of_decode`). -/
theorem decodedWordIsTheEncodedWord : Obligations.DecodedWordIsTheEncodedWord := fun _ _ h =>
  ⟨wellFormed_of_decode h, encode_of_decode h⟩

/-- Settles O3: a row that matches has the word's opcode byte, and no two rows share one. -/
theorem opcodeRowsAreDisjoint : Obligations.OpcodeRowsAreDisjoint := by
  intro p q w hp hq
  obtain ⟨hpop, -⟩ := Opcode.matchesWord_iff.mp hp
  obtain ⟨hqop, -⟩ := Opcode.matchesWord_iff.mp hq
  exact Opcode.byte_inj (hpop.symm.trans hqop)

end Sys2Proof
end

section
/-! PROOF. The invariant of the block (10_state.md R24 to R29; 60_exceptions.md R201, R203): a command's writes keep it, and so
do the recording of a code and the answer, which end every command. -/

namespace Sys2Proof.Machine

section
variable {i : Instr} {s t u : State}

namespace BlockInv

theorem presenting (h : BlockInv s) (events : List HostEvent) : BlockInv (s.presenting events) := { h with }

theorem reply_right (h : BlockInv s) (resp : RespCode) (dout : BitVec 64) : BlockInv (reply resp dout s) := { h with }

/-- A recorded error is the first one or finds one recorded before it, so `FIRST_ERR` is 0 only after `OK`. -/
theorem record_right (h : BlockInv s) {resp : RespCode} (hresp : resp.toNat ≤ 8) : BlockInv (record resp s) :=
  { h with
    lastErr_le := hresp
    firstErr_le := by
      rw [record_firstErr]
      split
      · exact hresp
      · exact h.firstErr_le
    no_error := by
      intro hfirst
      rw [record_firstErr] at hfirst
      split at hfirst
      · exact hfirst
      · next hnot => exact not_not.mp fun hne => hnot ⟨hne, hfirst⟩ }

theorem of_raise (h : BlockInv u) {e : ErrorCode} (ht : raise e u = .next t) : BlockInv t :=
  raise_next ht ▸ (h.record_right e.code_le).reply_right _ _

theorem of_succeed (h : BlockInv u) {dout : BitVec 64} (ht : succeed dout u = .next t) : BlockInv t :=
  succeed_next ht ▸ (h.record_right (resp := 0#4) (Nat.zero_le 8)).reply_right _ _

theorem of_succeedUnrecorded (h : BlockInv u) {dout : BitVec 64} (ht : succeedUnrecorded dout u = .next t) : BlockInv t :=
  succeedUnrecorded_next ht ▸ h.reply_right _ _

theorem tscValid_of_prsValid (h : BlockInv s) (hprs : s.prsValid = true) : s.tscValid = true := by
  by_contra htsc
  obtain ⟨-, -, hnot⟩ := h.no_temperature (Bool.eq_false_iff.mpr htsc)
  exact Bool.false_ne_true (hnot.symm.trans hprs)

end BlockInv

theorem blockInv_resetRegisters (s : State) : BlockInv (resetRegisters s) := { invariantAtReset with }

/-- Loading a byte sets its valid bit and clears none. `CDEC` finds nothing converted with the coefficients it replaces.
`CVT` and `CVP` write the values of the raw bytes, the latter beside the `TSC` of an earlier raw value. -/
theorem Writes.blockInv (hw : Writes i s u) (h : BlockInv s) : BlockInv u := by
  cases hw with
  | cld hidx =>
    refine { h with calibrated := fun hcal k => ?_ }
    rw [Fin.getElem_fin, Vector.getElem_set]
    split
    · rfl
    · exact h.calibrated hcal k
  | cdec hcal hbytes =>
    obtain ⟨-, htsc⟩ := h.uncalibrated hcal
    obtain ⟨-, -, hprs⟩ := h.no_temperature htsc
    exact
      { h with
        calibrated := fun _ => coefComplete_iff.mp hbytes
        uncalibrated := nofun
        temperature := fun htrue => absurd (htsc.symm.trans htrue) Bool.false_ne_true
        pressure := fun htrue => absurd (hprs.symm.trans htrue) Bool.false_ne_true }
  | mld hidx => exact { h with }
  | cvt hcal hraw =>
    exact
      { h with
        uncalibrated := fun hfalse => absurd (hfalse.symm.trans hcal) Bool.false_ne_true
        no_temperature := nofun
        temperature := fun _ => ⟨_, isRaw_raw24 s.rb, rfl, rfl⟩ }
  | cvp hcal htsc hraw =>
    obtain ⟨rawT, hrawT, htscT, -⟩ := h.temperature htsc
    exact
      { h with
        no_temperature := fun hfalse => absurd (hfalse.symm.trans htsc) Bool.false_ne_true
        no_pressure := nofun
        pressure := fun _ => ⟨rawT, _, hrawT, isRaw_raw24 s.rb, rfl, htscT ▸ rfl⟩ }
  | berr =>
    refine { h with calibrated := fun hcal => ?_ }
    rw [if_pos hcal]
    exact h.calibrated hcal
  | rst => exact blockInv_resetRegisters s

theorem Completes.blockInv {o : Host.Outcome State Fault Refusal} (hc : Completes i s o) (h : BlockInv s)
    (ho : o = .next t) : BlockInv t := by
  cases hc with
  | nop | rdc | rdr => exact h.of_succeed ho
  | rds => exact h.of_succeedUnrecorded ho
  | berr hw => exact (hw.blockInv h).of_raise ho
  | writes hw => exact (hw.blockInv h).of_succeed ho

theorem BlockInv.of_takeEvent (h : BlockInv s) {e : HostEvent} (ht : takeEvent e s = .next t) : BlockInv t := by
  cases e with
  | command w =>
    obtain ⟨e, he⟩ | ⟨i, -, hc⟩ := perform_cases w s
    · exact h.of_raise (he.symm.trans ht)
    · exact hc.blockInv h ht
  | rst => exact takeReset_next ht ▸ { invariantAtReset with }

end

theorem step_of_stream_cons {s : State} {e : HostEvent} {rest : List HostEvent} (hs : s.stream = e :: rest) :
    step s = takeEvent e (s.presenting rest) := by
  simp only [step, nextEvent, hs, State.presenting]

/-- Settles O48: the event is taken in a state with the invariant, which a raised error and each way a command completes
keep. -/
theorem everyStepKeepsTheInvariant : Obligations.EveryStepKeepsTheInvariant := by
  intro s t h hstep
  cases hs : s.stream with
  | nil =>
    rw [noStepWhenHostStops s hs] at hstep
    cases hstep
  | cons e rest =>
    rw [step_of_stream_cons hs] at hstep
    exact (h.presenting rest).of_takeEvent hstep

end Sys2Proof.Machine
end
